-- ==== Sys2Proof/Word.lean ====
section
/-! DEFINITION. The widths the block's values have (00_scope.md rule R7: every value is unsigned). -/

namespace Sys2Proof

/-- `u8`: a logical byte, an expander byte, a request field, a transport status (00_scope.md R7). -/
abbrev Byte := BitVec 8

/-- A 16-bit value: milliseconds, the speed selector, a LOG info (00_scope.md R6, R9). -/
abbrev Half := BitVec 16

/-- A request word, `{RSV, B, A, OPC}` (30_encoding.md R74). -/
abbrev ReqWord := BitVec 32

/-- A 7-bit I2C slave address (00_scope.md R6, CFG_ADDR). -/
abbrev Addr7 := BitVec 7

end Sys2Proof
end

