-- ==== Sys2Proof/Syntax.lean ====
section
/-! DEFINITION. The requests: one constructor per row of spec/opcode_table.json (30_encoding.md R75). Operands are the raw
u8 fields A and B; WellFormed.lean says which values of an enumeration operand are legal. The payload of SEND_STRING and
CREATE_CUSTOM_CHAR arrives on the payload port (R73), not in the word. -/

namespace Sys2Proof

/-- One request (30_encoding.md R75). -/
inductive Instr where
  /-- OPEN, 0x01. -/
  | openBus
  /-- CLOSE, 0x02. -/
  | close
  /-- INIT, 0x03; A = cursor type. -/
  | init (ct : Byte)
  /-- RESET_SCREEN, 0x04; A = cursor type. -/
  | resetScreen (ct : Byte)
  /-- CLEAR_SCREEN, 0x05. -/
  | clearScreen
  /-- CLEAR_SCREEN_CMD, 0x06. -/
  | clearScreenCmd
  /-- HOME, 0x07. -/
  | home
  /-- GOTO, 0x08; A = row (1-based), B = col (0-based). -/
  | goto (row col : Byte)
  /-- SEND_CHAR, 0x09; A = character code. -/
  | sendChar (ch : Byte)
  /-- SEND_STRING, 0x0A; A = length n; n payload bytes. -/
  | sendString (n : Byte)
  /-- MOVE_CURSOR, 0x0B; A = direction, B = count. -/
  | moveCursor (dir count : Byte)
  /-- SCROLL, 0x0C; A = direction, B = count. -/
  | scroll (dir count : Byte)
  /-- CHANGE_ENTRY_MODE, 0x0D; A = mode. -/
  | changeEntryMode (mode : Byte)
  /-- CREATE_CUSTOM_CHAR, 0x0E; A = slot; 8 payload bytes. -/
  | createCustomChar (slot : Byte)
  /-- PRINT_CUSTOM_CHAR, 0x0F; A = slot. -/
  | printCustomChar (slot : Byte)
  /-- BACKLIGHT_SET, 0x10; A = on. -/
  | backlightSet (on : Byte)
  /-- DISPLAY_ON, 0x11; A = on. -/
  | displayOn (on : Byte)
  /-- CLEAR_LINE, 0x12; A = row. -/
  | clearLine (row : Byte)
  /-- SHUTDOWN, 0x13. -/
  | shutdown
  /-- SEND_CMD, 0x14; A = command byte. -/
  | sendCmd (c : Byte)
  deriving DecidableEq, Repr

end Sys2Proof
end

