-- ==== Sys2Proof/WellFormed.lean ====
section
/-! DEFINITION. Which requests are legal as instructions: the enumeration operands in range (30_encoding.md R82, items 4 and
5). Rows, columns, slots, counts, characters and command bytes are any u8 (R75: a listed range check makes the request a
no-op, not an illegal request). -/

namespace Sys2Proof

/-- The request's enumeration operand is one that 30_encoding.md R76 to R78 name. -/
def Instr.wellFormed : Instr → Bool
  | .openBus => true
  | .close => true
  | .init ct => decide (ct.toNat < 4)
  | .resetScreen ct => decide (ct.toNat < 4)
  | .clearScreen => true
  | .clearScreenCmd => true
  | .home => true
  | .goto _ _ => true
  | .sendChar _ => true
  | .sendString _ => true
  | .moveCursor dir _ => decide (dir.toNat < 2)
  | .scroll dir _ => decide (dir.toNat < 2)
  | .changeEntryMode mode => decide (mode.toNat < 4)
  | .createCustomChar _ => true
  | .printCustomChar _ => true
  | .backlightSet on => decide (on.toNat < 2)
  | .displayOn on => decide (on.toNat < 2)
  | .clearLine _ => true
  | .shutdown => true
  | .sendCmd _ => true

end Sys2Proof
end

