-- ==== Sys2Proof/Decode.lean ====
section
/-! DEFINITION. The request word: its fields, its decoder, and its encoder (30_encoding.md R74, R75, R82). The word arrives
whole on a 32-bit port (R71), so it has no byte order. -/

namespace Sys2Proof

/-! ## Fields of a request word (30_encoding.md R74) -/

/-- OPC, bits [7:0]. -/
def reqOpc (w : ReqWord) : Byte := w.extractLsb' 0 8
/-- A, bits [15:8]. -/
def reqA (w : ReqWord) : Byte := w.extractLsb' 8 8
/-- B, bits [23:16]. -/
def reqB (w : ReqWord) : Byte := w.extractLsb' 16 8
/-- RSV, bits [31:24]. -/
def reqRsv (w : ReqWord) : Byte := w.extractLsb' 24 8

/-- `{RSV, B, A, OPC}` with RSV = 0. -/
def reqWord (b a opc : Byte) : ReqWord := 0#8 ++ b ++ a ++ opc

/-- The payload length, "from OPC and A alone: A bytes for OPC 0x0A, 8 bytes for OPC 0x0E, 0 otherwise" (R74). -/
def payloadLen (w : ReqWord) : Nat :=
  if reqOpc w = 0x0A#8 then (reqA w).toNat else if reqOpc w = 0x0E#8 then 8 else 0

/-! ## The decoder -/

/-- Why a word is illegal: the items of 30_encoding.md R82. The machine treats all alike (R205). -/
inductive DecodeError where
  /-- Item 1: OPC = 0x00 or OPC ≥ 0x15. -/
  | reservedOpcode
  /-- Item 2: RSV ≠ 0. -/
  | rsvNotZero
  /-- Item 3: a field marked "must be 0" is nonzero. -/
  | operandNotZero
  /-- Items 4 and 5: an enumeration operand out of range. -/
  | operandOutOfRange
  deriving DecidableEq, Repr

/-- A row whose A and B must be 0. -/
def noOperand (a b : Byte) (i : Instr) : Except DecodeError Instr :=
  if a = 0#8 ∧ b = 0#8 then .ok i else .error .operandNotZero

/-- A row with operand A below `bound` and B = 0. -/
def operandA (bound : Nat) (a b : Byte) (mk : Byte → Instr) : Except DecodeError Instr :=
  if b ≠ 0#8 then .error .operandNotZero
  else if a.toNat < bound then .ok (mk a) else .error .operandOutOfRange

/-- A row with operand A below `bound` and any B. -/
def operandAB (bound : Nat) (a b : Byte) (mk : Byte → Byte → Instr) : Except DecodeError Instr :=
  if a.toNat < bound then .ok (mk a b) else .error .operandOutOfRange

/-- The opcode map of 30_encoding.md R75, on the fields of a word whose RSV is 0. -/
def decodeFields (opc a b : Byte) : Except DecodeError Instr :=
  match opc.toNat with
  | 0x01 => noOperand a b .openBus
  | 0x02 => noOperand a b .close
  | 0x03 => operandA 4 a b .init
  | 0x04 => operandA 4 a b .resetScreen
  | 0x05 => noOperand a b .clearScreen
  | 0x06 => noOperand a b .clearScreenCmd
  | 0x07 => noOperand a b .home
  | 0x08 => operandAB 256 a b .goto
  | 0x09 => operandA 256 a b .sendChar
  | 0x0A => operandA 256 a b .sendString
  | 0x0B => operandAB 2 a b .moveCursor
  | 0x0C => operandAB 2 a b .scroll
  | 0x0D => operandA 4 a b .changeEntryMode
  | 0x0E => operandA 256 a b .createCustomChar
  | 0x0F => operandA 256 a b .printCustomChar
  | 0x10 => operandA 2 a b .backlightSet
  | 0x11 => operandA 2 a b .displayOn
  | 0x12 => operandA 256 a b .clearLine
  | 0x13 => noOperand a b .shutdown
  | 0x14 => operandA 256 a b .sendCmd
  | _ => .error .reservedOpcode

/-- The request a word stands for, or why it is illegal (30_encoding.md R75, R82). -/
def decode (w : ReqWord) : Except DecodeError Instr :=
  if reqRsv w ≠ 0#8 then .error .rsvNotZero else decodeFields (reqOpc w) (reqA w) (reqB w)

/-- The decoder on a row of spec/opcode_table.json whose `nbits` low bits are `w` and whose higher bits are 0. -/
def decodeTableWord (nbits w : Nat) : Option Instr := (decode (BitVec.ofNat 32 (w % 2 ^ nbits))).toOption

/-! ## The encoder -/

/-- The request word of a request (30_encoding.md R75). An operand out of range is encoded as it stands. -/
def encode : Instr → ReqWord
  | .openBus => reqWord 0#8 0#8 0x01#8
  | .close => reqWord 0#8 0#8 0x02#8
  | .init ct => reqWord 0#8 ct 0x03#8
  | .resetScreen ct => reqWord 0#8 ct 0x04#8
  | .clearScreen => reqWord 0#8 0#8 0x05#8
  | .clearScreenCmd => reqWord 0#8 0#8 0x06#8
  | .home => reqWord 0#8 0#8 0x07#8
  | .goto row col => reqWord col row 0x08#8
  | .sendChar ch => reqWord 0#8 ch 0x09#8
  | .sendString n => reqWord 0#8 n 0x0A#8
  | .moveCursor dir count => reqWord count dir 0x0B#8
  | .scroll dir count => reqWord count dir 0x0C#8
  | .changeEntryMode mode => reqWord 0#8 mode 0x0D#8
  | .createCustomChar slot => reqWord 0#8 slot 0x0E#8
  | .printCustomChar slot => reqWord 0#8 slot 0x0F#8
  | .backlightSet on => reqWord 0#8 on 0x10#8
  | .displayOn on => reqWord 0#8 on 0x11#8
  | .clearLine row => reqWord 0#8 row 0x12#8
  | .shutdown => reqWord 0#8 0#8 0x13#8
  | .sendCmd c => reqWord 0#8 c 0x14#8

/-! ## The opcode table as data -/

/-- One row of spec/opcode_table.json: a word `w` belongs to it when `w &&& mask = pattern`. -/
structure OpcodeRow where
  pattern : ReqWord
  mask : ReqWord
  deriving DecidableEq, Repr

/-- The word matches the row. -/
def OpcodeRow.matches (r : OpcodeRow) (w : ReqWord) : Bool := w &&& r.mask == r.pattern

/-- The "match" and "mask" columns of spec/opcode_table.json, in its order. -/
def opcodeTable : List OpcodeRow :=
  [⟨0x00000001#32, 0xFFFFFFFF#32⟩, ⟨0x00000002#32, 0xFFFFFFFF#32⟩, ⟨0x00000003#32, 0xFFFFFCFF#32⟩,
   ⟨0x00000004#32, 0xFFFFFCFF#32⟩, ⟨0x00000005#32, 0xFFFFFFFF#32⟩, ⟨0x00000006#32, 0xFFFFFFFF#32⟩,
   ⟨0x00000007#32, 0xFFFFFFFF#32⟩, ⟨0x00000008#32, 0xFF0000FF#32⟩, ⟨0x00000009#32, 0xFFFF00FF#32⟩,
   ⟨0x0000000A#32, 0xFFFF00FF#32⟩] ++
  [⟨0x0000000B#32, 0xFF00FEFF#32⟩, ⟨0x0000000C#32, 0xFF00FEFF#32⟩, ⟨0x0000000D#32, 0xFFFFFCFF#32⟩,
   ⟨0x0000000E#32, 0xFFFF00FF#32⟩, ⟨0x0000000F#32, 0xFFFF00FF#32⟩, ⟨0x00000010#32, 0xFFFFFEFF#32⟩,
   ⟨0x00000011#32, 0xFFFFFEFF#32⟩, ⟨0x00000012#32, 0xFFFF00FF#32⟩, ⟨0x00000013#32, 0xFFFFFFFF#32⟩,
   ⟨0x00000014#32, 0xFFFF00FF#32⟩]

end Sys2Proof
end

