-- ==== Sys2Proof/Config.lean ====
section
/-! DEFINITION. What is fixed for one instance of the block: its configuration inputs and its design parameters
(00_scope.md R6). "The model takes every name in the tables below as an argument": both are plain data that every state
carries and no step changes, so that a claim about every state is a claim about every instance (log 5). Default values
stand in Machine/Constants.lean. -/

namespace Sys2Proof

/-- The configuration inputs CFG_*, and the CFG registers that hold them after reset (00_scope.md R6; 10_state.md R21). -/
structure Cfg where
  /-- CFG.ROWS; 1..4 are valid, 0 and 5..7 are accepted. -/
  rows : BitVec 3
  /-- CFG.COLS. -/
  cols : Byte
  /-- CFG.ADDR, the 7-bit slave address. -/
  addr : Addr7
  /-- CFG.SPEED, passed to the bus master unchanged (40_transport.md R101). -/
  speed : Half
  /-- CFG.DEBUG: LOG events are emitted when it is 1 (60_exceptions.md R213). -/
  debug : Bool
  /-- CFG.RETRY_LIMIT; 0 is unbounded (40_transport.md R105). -/
  retryLimit : Half
  /-- CFG.RETRY_DELAY_MS. -/
  retryDelayMs : Half
  /-- CFG.BL_INIT: backlight on at reset. -/
  blInit : Bool
  deriving DecidableEq, Repr

/-- The parameter table CMD of HD44780 command bytes (30_encoding.md R80). -/
structure CmdTable where
  clear : Byte
  home : Byte
  functionSet : Byte
  displayOn : Byte
  displayOff : Byte
  /-- CMD_CURSOR[0], "cursor hidden". -/
  cursorHidden : Byte
  /-- CMD_CURSOR[1], "blinking block". -/
  cursorBlink : Byte
  /-- CMD_CURSOR[2], "visible underline". -/
  cursorUnderline : Byte
  /-- CMD_CURSOR[3], "both". -/
  cursorBoth : Byte
  /-- CMD_ENTRY[0], decrement, no display shift. -/
  entryDec : Byte
  /-- CMD_ENTRY[1], decrement, with display shift. -/
  entryDecShift : Byte
  /-- CMD_ENTRY[2], increment, no display shift: the default entry mode. -/
  entryInc : Byte
  /-- CMD_ENTRY[3], increment, with display shift. -/
  entryIncShift : Byte
  cursorLeft : Byte
  cursorRight : Byte
  scrollLeft : Byte
  scrollRight : Byte
  deriving DecidableEq, Repr

/-- CLEAR_ROW_ORDER: the order CLEAR_SCREEN visits rows (00_scope.md R6). -/
inductive RowOrder where
  | ascending
  | descending
  deriving DecidableEq, Repr

/-- The design parameters T_*, CMD_* and CLEAR_ROW_ORDER, fixed per instance (00_scope.md R6). Widths of the T_*_MS are
those of Wait's argument (70_reset_and_hazards.md R250). -/
structure Params where
  powerOnMs : Half
  initGapMs : Half
  initClearMs : Half
  clearSettleMs : Half
  homeSettleMs : Half
  displayMs : Half
  /-- T_FRAME_GAP_US: counted by the bus master, "not traced", read by no rule of the trace (70_reset_and_hazards.md R252). -/
  frameGapUs : Nat
  rowOrder : RowOrder
  cmd : CmdTable
  deriving DecidableEq, Repr

end Sys2Proof
end

