-- ==== Sys2Proof/Machine/Constants.lean ====
section
/-! DEFINITION. The source-fixed constants and the default values of the parameters (00_scope.md R6; 30_encoding.md R80, R84,
R85), and which instances are legal (00_scope.md R6; 30_encoding.md R81; 70_reset_and_hazards.md R250). -/

namespace Sys2Proof.Machine

/-! ## Source-fixed constants -/

/-- CTRL_DATA_ON: data byte, EN high (30_encoding.md R84). -/
def ctrlDataOn : Byte := 0x0D#8
/-- CTRL_DATA_OFF: data byte, EN low. -/
def ctrlDataOff : Byte := 0x09#8
/-- CTRL_CMD_ON: command byte, EN high. -/
def ctrlCmdOn : Byte := 0x0C#8
/-- CTRL_CMD_OFF: command byte, EN low. -/
def ctrlCmdOff : Byte := 0x08#8
/-- BL_ON_MASK (30_encoding.md R85). -/
def blOnMask : Byte := 0x0F#8
/-- BL_OFF_MASK. -/
def blOffMask : Byte := 0x07#8
/-- BL_MASK for backlight on or off (10_state.md R22; 43_display_ops.md R173). -/
def blMaskOf (on : Bool) : Byte := if on then blOnMask else blOffMask
/-- The space character every clearing request writes (43_display_ops.md R160, R161). -/
def spaceChar : Byte := 0x20#8
/-- CGRAM_SLOTS: slots 0..7 (00_scope.md R6). -/
def cgramSlots : Nat := 8
/-- GLYPH_BYTES (00_scope.md R6). -/
def glyphBytes : Nat := 8

/-! ## Defaults -/

/-- The default CMD table: the HD44780 encodings, which the spec marks as general knowledge (30_encoding.md R80, G1; log 5). -/
def defaultCmd : CmdTable where
  clear := 0x01#8
  home := 0x02#8
  functionSet := 0x28#8
  displayOn := 0x0C#8
  displayOff := 0x08#8
  cursorHidden := 0x0C#8
  cursorBlink := 0x0D#8
  cursorUnderline := 0x0E#8
  cursorBoth := 0x0F#8
  entryDec := 0x04#8
  entryDecShift := 0x05#8
  entryInc := 0x06#8
  entryIncShift := 0x07#8
  cursorLeft := 0x10#8
  cursorRight := 0x14#8
  scrollLeft := 0x18#8
  scrollRight := 0x1C#8

/-- The default design parameters (00_scope.md R6). -/
def defaultParams : Params where
  powerOnMs := 15#16
  initGapMs := 5#16
  initClearMs := 5#16
  clearSettleMs := 3#16
  homeSettleMs := 3#16
  displayMs := 5#16
  frameGapUs := 0
  rowOrder := .ascending
  cmd := defaultCmd

/-- The configuration State.reset samples: the defaults of 00_scope.md R6, and for CFG_ROWS and CFG_COLS, which have none,
the 2 by 16 of 95_test_vectors.md L3 (log 4, DESIGN CHOICE). -/
def defaultCfg : Cfg where
  rows := 2#3
  cols := 16#8
  addr := 0x27#7
  speed := 0#16
  debug := false
  retryLimit := 0#16
  retryDelayMs := 50#16
  blInit := true

/-! ## Legal instances -/

/-- Every delay parameter is at least its source minimum (70_reset_and_hazards.md R250). "An instance below them is outside
this spec": a claim that needs the minima takes this as a premise. -/
def delaysLegal (p : Params) : Bool :=
  decide (15 ≤ p.powerOnMs.toNat) && decide (5 ≤ p.initGapMs.toNat) && decide (5 ≤ p.initClearMs.toNat)
    && decide (3 ≤ p.clearSettleMs.toNat) && decide (3 ≤ p.homeSettleMs.toNat) && decide (5 ≤ p.displayMs.toNat)

/-- The values of a CMD table mean what the source names (30_encoding.md R81), read by the HD44780 instruction formats that
R80 lists as general knowledge (log 14, PRESUMED). R81's list asks of CMD_FUNCTION_SET the 4-bit interface and multiple
lines, while R80's column names a 5×7 font beside them: the model follows the list and leaves F free. Of the display
commands it fixes D alone and leaves C and B free (both DESIGN CHOICE, log 14). -/
def cmdLegal (c : CmdTable) : Bool :=
  c.clear == 0x01#8 && c.home &&& 0xFE#8 == 0x02#8
    && c.functionSet &&& 0xF8#8 == 0x28#8
    && c.displayOn &&& 0xFC#8 == 0x0C#8 && c.displayOff &&& 0xFC#8 == 0x08#8
    && c.cursorHidden == 0x0C#8 && c.cursorBlink == 0x0D#8 && c.cursorUnderline == 0x0E#8 && c.cursorBoth == 0x0F#8
    && c.entryDec == 0x04#8 && c.entryDecShift == 0x05#8 && c.entryInc == 0x06#8 && c.entryIncShift == 0x07#8
    && c.cursorLeft &&& 0xFC#8 == 0x10#8 && c.cursorRight &&& 0xFC#8 == 0x14#8
    && c.scrollLeft &&& 0xFC#8 == 0x18#8 && c.scrollRight &&& 0xFC#8 == 0x1C#8

/-- The configuration inputs the spec calls valid: 1 to 4 rows, a retry delay of at least 1 ms (00_scope.md R6). Others are
accepted and run as the rules say. -/
def cfgValid (c : Cfg) : Bool :=
  decide (1 ≤ c.rows.toNat) && decide (c.rows.toNat ≤ 4) && decide (1 ≤ c.retryDelayMs.toNat)

end Sys2Proof.Machine
end

