-- ==== Sys2Proof/Machine/State.lean ====
section
/-! DEFINITION. The state of the block as plain data (10_state.md), the events of its trace (00_scope.md R9), and the reasons
a step can stop. -/

namespace Sys2Proof.Machine

/-! ## Frames and events -/

/-- The four expander bytes of one logical byte, b0 transmitted first (00_scope.md R7; 20_memory.md R56). -/
structure Frame where
  b0 : Byte
  b1 : Byte
  b2 : Byte
  b3 : Byte
  deriving DecidableEq, Repr

/-- The kinds of LOG event (60_exceptions.md R214). -/
inductive LogKind where
  | retry
  | frameDropped
  | invalidGeometry
  | busUnavailable
  | illegalRequest
  | busNotOpen
  deriving DecidableEq, Repr

/-- One event of the trace (00_scope.md R9). -/
inductive Event where
  /-- One transport attempt of frame `f` to `addr`, answered with status `st`. -/
  | frame (addr : Addr7) (f : Frame) (st : Byte)
  /-- One blocking wait of at least `ms` milliseconds. -/
  | delay (ms : Half)
  /-- One bus-claim attempt and its result. -/
  | claim (addr : Addr7) (speed : Half) (ok : Bool)
  /-- The bus was released. -/
  | release
  /-- One diagnostic event. -/
  | log (kind : LogKind) (info : Half)
  /-- Completion of one request, with its 3-bit response code. -/
  | resp (code : BitVec 3)
  deriving DecidableEq, Repr

/-! ## Errors, the initialisation state and the sequencer -/

/-- The errors a raise ends a request with (60_exceptions.md R200). -/
inductive ErrorKind where
  | illegalRequest
  | busNotOpen
  | busUnavailable
  | invalidSlot
  | invalidGeometry
  deriving DecidableEq, Repr

/-- INIT_STATE (10_state.md R24). -/
inductive InitState where
  | uninitialized
  | nibbleModeNegotiated
  | configured
  | ready
  deriving DecidableEq, Repr

/-- The primitives a request's rule is made of (00_scope.md R8; 10_state.md R32: "one SendFrame, one Wait, one Emit, one
register write"). -/
inductive Prim where
  /-- SendCmd(b) (41_encoder.md R122). -/
  | sendCmd (b : Byte)
  /-- SendData(b) (41_encoder.md R123). -/
  | sendData (b : Byte)
  /-- SendData of the next payload byte (41_encoder.md R127; 43_display_ops.md R171). -/
  | sendPayload
  /-- Capture the next payload byte and discard it (30_encoding.md R73). -/
  | dropPayload
  /-- Wait(ms) (70_reset_and_hazards.md R250). -/
  | wait (ms : Half)
  /-- INIT_STATE <- st. -/
  | setInitState (st : InitState)
  /-- CURSOR_TYPE <- ct ; CT_VALID <- 1. -/
  | setCursorType (ct : BitVec 2)
  /-- ENTRY_MODE <- m ; EM_VALID <- 1. -/
  | setEntryMode (m : BitVec 2)
  /-- BL_MASK <- on ? 0x0F : 0x07 (43_display_ops.md R173). -/
  | setBacklight (on : Bool)
  /-- BusClaim, and what OPEN does with its result (40_transport.md R100, R101). -/
  | claimBus
  /-- BusRelease ; BUS_OPEN <- 0 (40_transport.md R102; 42_init.md R145). -/
  | releaseBus
  deriving DecidableEq, Repr

/-- What the sequencer is in the middle of while it waits for the world outside (10_state.md R31). -/
inductive Phase where
  /-- At the start of the next primitive: waiting for nothing. -/
  | start
  /-- An attempt of frame `f` is at the bus master; `n` retries were made before it (40_transport.md R103, R105). -/
  | attempt (f : Frame) (n : Half)
  /-- In the Wait before a retry of `f`, `left` ms_tick pulses to come; `n` retries counted, this one included. -/
  | retryWait (f : Frame) (n : Half) (left : Nat)
  /-- In a Wait, `left` ms_tick pulses to come (70_reset_and_hazards.md R250). -/
  | waiting (left : Nat)
  /-- A bus claim is at the bus master (40_transport.md R101). -/
  | claiming
  /-- A payload byte is awaited, to be sent (30_encoding.md R73). -/
  | payloadSend
  /-- A payload byte is awaited, to be discarded (30_encoding.md R73). -/
  | payloadDrop
  deriving DecidableEq, Repr

/-- The sequencer's transient state (10_state.md R31; 60_exceptions.md R203, R204). -/
structure Seq where
  /-- The current request: OPC, A, B, RSV. -/
  word : ReqWord
  /-- The primitives after the one in progress. -/
  todo : List Prim
  /-- The primitive in progress. -/
  phase : Phase
  /-- cur_dropped. -/
  dropped : Bool
  /-- The error whose raise ended the request. -/
  raised : Option ErrorKind
  deriving DecidableEq, Repr

/-- The transient state between requests. The spec leaves it undefined and never read; this value is the model's
(log 12, DESIGN CHOICE). -/
def Seq.idle : Seq := ⟨0#32, [], .start, false, none⟩

/-! ## The state -/

/-- The state of the block (10_state.md R21 to R31 and the trace, R37), the parameters of the instance, and the
environment's inputs it has not taken yet (00_scope.md R10; log 2, 3). -/
structure State where
  /-- The CFG registers (R21). -/
  cfg : Cfg
  /-- The design parameters of the instance (00_scope.md R6; log 5). -/
  par : Params
  /-- BL_MASK (R22). -/
  blMask : Byte
  /-- BUS_OPEN (R23). -/
  busOpen : Bool
  /-- INIT_STATE (R24). -/
  initState : InitState
  /-- ERRCNT (R25). -/
  errcnt : BitVec 32
  /-- F_BUS_UNAVAILABLE (R26). -/
  fBusUnavailable : Bool
  /-- F_ILLEGAL_REQUEST (R26). -/
  fIllegalRequest : Bool
  /-- F_BUS_NOT_OPEN (R26). -/
  fBusNotOpen : Bool
  /-- F_NOT_READY_USE (R26). -/
  fNotReadyUse : Bool
  /-- F_FRAME_DROPPED (R26). -/
  fFrameDropped : Bool
  /-- W_INVALID_GEOMETRY (R27). -/
  wInvalidGeometry : Bool
  /-- W_INVALID_SLOT (R27). -/
  wInvalidSlot : Bool
  /-- CURSOR_TYPE (R28). -/
  cursorType : BitVec 2
  /-- CT_VALID (R28). -/
  ctValid : Bool
  /-- ENTRY_MODE (R28). -/
  entryMode : BitVec 2
  /-- EM_VALID (R28). -/
  emValid : Bool
  /-- LAST_RESP (R29). -/
  lastResp : BitVec 3
  /-- BUSY (R30). -/
  busy : Bool
  /-- The sequencer's transient state (R31). -/
  seq : Seq
  /-- The trace emitted so far, oldest event first (R37). -/
  trace : List Event
  /-- MODEL's own: request words offered and not yet accepted, first to be accepted first (30_encoding.md R71). -/
  requests : List ReqWord
  /-- MODEL's own: payload bytes offered and not yet captured (30_encoding.md R73). -/
  payload : List Byte
  /-- MODEL's own: the bus master's answers to the attempts to come (30_encoding.md R72; 40_transport.md R103). -/
  statuses : List Byte
  /-- MODEL's own: the bus master's answers to the claims to come (40_transport.md R101). -/
  claims : List Bool
  /-- MODEL's own: how many more ms_tick pulses arrive during Waits (30_encoding.md R70; 70_reset_and_hazards.md R250). -/
  ticks : Nat
  deriving DecidableEq, Repr

/-- Why a step has no successor: the stuck states of 70_reset_and_hazards.md R258. The block waits with BUSY = 1 and emits
nothing until reset, or until the world outside supplies what it waits for (log 9). All are safe: the model stops where
the hardware stops too. -/
inductive Fault where
  /-- `step` of a request that awaits a payload byte nobody has offered (30_encoding.md R73). Safe. -/
  | payloadMissing
  /-- `step` of OPEN, its claim unanswered (40_transport.md R101; 70_reset_and_hazards.md R258). Safe. -/
  | claimUnanswered
  /-- `step` of a request whose attempt the bus master has not answered (40_transport.md R103). Safe. -/
  | attemptUnanswered
  /-- `step` of a request in a Wait while no ms_tick pulse arrives (70_reset_and_hazards.md R250). Safe. -/
  | tickStopped
  deriving DecidableEq, Repr

/-- Why the model has no meaning for an instruction. -/
inductive Refusal where
  /-- Raised by `exec` alone, for an instruction of the table that has no meaning yet; every instruction has one. Safe. -/
  | notModelled (mnemonic : String)
  deriving DecidableEq, Repr

/-- What a meaning and a step answer. -/
abbrev Result := Host.Outcome State Fault Refusal

/-! ## Reset -/

/-- The registers after reset is released with configuration inputs `c`, in an instance with parameters `p`
(10_state.md R36; 70_reset_and_hazards.md R240). -/
def State.resetWith (c : Cfg) (p : Params) : State where
  cfg := c
  par := p
  blMask := blMaskOf c.blInit
  busOpen := false
  initState := .uninitialized
  errcnt := 0#32
  fBusUnavailable := false
  fIllegalRequest := false
  fBusNotOpen := false
  fNotReadyUse := false
  fFrameDropped := false
  wInvalidGeometry := false
  wInvalidSlot := false
  cursorType := 0#2
  ctValid := false
  entryMode := 0#2
  emValid := false
  lastResp := 0#3
  busy := false
  seq := Seq.idle
  trace := []
  requests := []
  payload := []
  statuses := []
  claims := []
  ticks := 0

/-- The machine right after reset, at the default configuration and parameters (log 4, 5). -/
def State.reset : State := State.resetWith defaultCfg defaultParams

end Sys2Proof.Machine
end

