-- ==== Sys2Proof/Machine/Encoder.lean ====
section
/-! DEFINITION. The nibble encoder (41_encoder.md R120) and what its bytes do on the LCD's pins (20_memory.md R52;
41_encoder.md R128). -/

namespace Sys2Proof.Machine

/-- Encode(B, rs, bm): one logical byte as four expander bytes, upper nibble first, EN high then low for each nibble
(41_encoder.md R120). The mask is ANDed with the control pattern, never with the nibble (90_conflicts.md C3). -/
def encodeByte (b : Byte) (rs : Bool) (bm : Byte) : Frame :=
  let on := if rs then ctrlDataOn else ctrlCmdOn
  let off := if rs then ctrlDataOff else ctrlCmdOff
  let upper := b &&& 0xF0#8
  let lower := (b <<< 4) &&& 0xF0#8
  ⟨upper ||| (on &&& bm), upper ||| (off &&& bm), lower ||| (on &&& bm), lower ||| (off &&& bm)⟩

/-- The inverse of the encoder: the logical byte, its register select and its backlight bit (41_encoder.md R124). -/
def decodeFrame (f : Frame) : Byte × Bool × Bool :=
  ((f.b0 &&& 0xF0#8) ||| (f.b2 >>> 4), f.b0.getLsbD 0, f.b0.getLsbD 3)

/-- The bytes of a frame in bus order (20_memory.md R56). -/
def frameBytes (f : Frame) : List Byte := [f.b0, f.b1, f.b2, f.b3]

/-- The LCD signals one expander byte drives (20_memory.md R52). -/
structure LcdPins where
  data : BitVec 4
  bl : Bool
  en : Bool
  rw : Bool
  rs : Bool
  deriving DecidableEq, Repr

/-- Bits 7..4 = D7..D4, 3 = BL, 2 = EN, 1 = RW, 0 = RS (20_memory.md R52; 90_conflicts.md C1). -/
def lcdPins (b : Byte) : LcdPins := ⟨b.extractLsb' 4 4, b.getLsbD 3, b.getLsbD 2, b.getLsbD 1, b.getLsbD 0⟩

/-- The nibbles that a run of expander bytes latches into the LCD: one at each falling edge of EN, with the register
select held then (41_encoder.md R128). -/
def latchedNibbles : List Byte → List (Bool × BitVec 4)
  | [] => []
  | [_] => []
  | b :: c :: rest =>
    if (lcdPins b).en && !(lcdPins c).en then ((lcdPins c).rs, (lcdPins c).data) :: latchedNibbles (c :: rest)
    else latchedNibbles (c :: rest)

end Sys2Proof.Machine
end

