-- ==== Sys2Proof/Machine/Flags.lean ====
section
/-! DEFINITION. The counters and the sticky flags (10_state.md R25 to R27). -/

namespace Sys2Proof.Machine

/-- sat_inc_32 (00_scope.md R7). -/
def satInc32 (x : BitVec 32) : BitVec 32 := if x = 0xFFFFFFFF#32 then x else x + 1#32

/-- The hardware's 16-bit retry counter "saturates at 0xFFFF" (40_transport.md R105). -/
def satInc16 (x : Half) : Half := if x = 0xFFFF#16 then x else x + 1#16

/-- min(n, 255) as a u8: the low half of a RETRY log's info (40_transport.md R105; 60_exceptions.md R214). -/
def capByte (n : Half) : Byte := if n.toNat ≤ 255 then n.setWidth 8 else 0xFF#8

/-- ERRCNT counts one failed attempt (10_state.md R25). -/
def countFailure (s : State) : State := { s with errcnt := satInc32 s.errcnt }

/-- The sticky flag of an error (60_exceptions.md R200; 10_state.md R26, R27). -/
def setErrorFlag (e : ErrorKind) (s : State) : State :=
  match e with
  | .illegalRequest => { s with fIllegalRequest := true }
  | .busNotOpen => { s with fBusNotOpen := true }
  | .busUnavailable => { s with fBusUnavailable := true }
  | .invalidSlot => { s with wInvalidSlot := true }
  | .invalidGeometry => { s with wInvalidGeometry := true }

/-- F_NOT_READY_USE is set when INIT_STATE ≠ Ready (60_exceptions.md R207). -/
def markNotReady (s : State) : State := { s with fNotReadyUse := s.fNotReadyUse || s.initState != .ready }

end Sys2Proof.Machine
end

