-- ==== Sys2Proof/Machine/Operands.lean ====
section
/-! DEFINITION. The bytes that operands select and the addresses they form (30_encoding.md R76 to R79; 20_memory.md R53,
R54). -/

namespace Sys2Proof.Machine

/-! ## DDRAM and CGRAM addresses -/

/-- RowAddressable(row) for a display of `cols` columns (20_memory.md R53). -/
def rowAddressable (cols row : Byte) : Bool :=
  row == 1#8 || row == 2#8 || ((row == 3#8 || row == 4#8) && (cols == 16#8 || cols == 20#8))

/-- RowAddr(row, col), the DDRAM-address-set byte, "defined only when RowAddressable(row)" (20_memory.md R53): OR for rows
1 and 2 and for 16 columns, a sum modulo 256 for rows 3 and 4 of 20 columns (43_display_ops.md R165). -/
def rowAddr? (cols row col : Byte) : Option Byte :=
  if row = 1#8 then some (0x80#8 ||| col)
  else if row = 2#8 then some (0xC0#8 ||| col)
  else if row = 3#8 then
    if cols = 20#8 then some (0x94#8 + col) else if cols = 16#8 then some (0x90#8 ||| col) else none
  else if row = 4#8 then
    if cols = 20#8 then some (0xD4#8 + col) else if cols = 16#8 then some (0xD0#8 ||| col) else none
  else none

/-- The CGRAM-address-set byte of glyph slot `s` (20_memory.md R54; 30_encoding.md R79). -/
def cgramCmd (slot : Byte) : Byte := 0x40#8 ||| (slot <<< 3)

/-- The geometry test of CLEAR_SCREEN: 1 ≤ ROWS ≤ 4 and every configured row addressable (43_display_ops.md R160). -/
def geometryOk (c : Cfg) : Bool :=
  decide (1 ≤ c.rows.toNat) && decide (c.rows.toNat ≤ 4)
    && (List.range c.rows.toNat).all fun k => rowAddressable c.cols (BitVec.ofNat 8 (k + 1))

/-- The rows CLEAR_SCREEN visits, in its order (43_display_ops.md R160). -/
def rowsInOrder (o : RowOrder) (rows : Nat) : List Byte :=
  let up := (List.range rows).map fun k => BitVec.ofNat 8 (k + 1)
  match o with
  | .ascending => up
  | .descending => up.reverse

/-! ## Enumerations -/

/-- A two-bit enumeration in A[1:0] (30_encoding.md R76, R77). -/
def enum2 (a : Byte) : BitVec 2 := a.extractLsb' 0 2

/-- A one-bit enumeration in A[0] (30_encoding.md R78). -/
def enum1 (a : Byte) : Bool := a.getLsbD 0

/-- CMD_CURSOR[ct] (30_encoding.md R76). -/
def cursorCmd (c : CmdTable) (ct : BitVec 2) : Byte :=
  if ct = 0#2 then c.cursorHidden else if ct = 1#2 then c.cursorBlink
  else if ct = 2#2 then c.cursorUnderline else c.cursorBoth

/-- CMD_ENTRY[m] (30_encoding.md R77). -/
def entryCmd (c : CmdTable) (m : BitVec 2) : Byte :=
  if m = 0#2 then c.entryDec else if m = 1#2 then c.entryDecShift
  else if m = 2#2 then c.entryInc else c.entryIncShift

/-- The default entry mode: increment, no display shift (30_encoding.md R77). -/
def defaultEntry : BitVec 2 := 2#2

/-- The byte of MOVE_CURSOR; direction 1 is right (43_display_ops.md R166). -/
def moveCmd (c : CmdTable) (right : Bool) : Byte := if right then c.cursorRight else c.cursorLeft

/-- The byte of SCROLL; direction 1 is right (43_display_ops.md R167). -/
def scrollCmd (c : CmdTable) (right : Bool) : Byte := if right then c.scrollRight else c.scrollLeft

/-- The byte of DISPLAY_ON (43_display_ops.md R174). -/
def displayCmd (c : CmdTable) (on : Bool) : Byte := if on then c.displayOn else c.displayOff

/-! ## Codes of the enumerations inside the block -/

/-- The encoding of INIT_STATE (10_state.md R24). -/
def initCode : InitState → BitVec 2
  | .uninitialized => 0#2
  | .nibbleModeNegotiated => 1#2
  | .configured => 2#2
  | .ready => 3#2

/-- log_kind (60_exceptions.md R214). -/
def logCode : LogKind → BitVec 3
  | .retry => 0#3
  | .frameDropped => 1#3
  | .invalidGeometry => 2#3
  | .busUnavailable => 3#3
  | .illegalRequest => 4#3
  | .busNotOpen => 5#3

/-- The response code of an error that ends a request (60_exceptions.md R200, R204). -/
def errorCode : ErrorKind → BitVec 3
  | .illegalRequest => 1#3
  | .busNotOpen => 2#3
  | .busUnavailable => 3#3
  | .invalidSlot => 4#3
  | .invalidGeometry => 5#3

/-- The LOG an error emits when CFG.DEBUG = 1; InvalidSlot has none (60_exceptions.md R200). -/
def errorLog : ErrorKind → Option LogKind
  | .illegalRequest => some .illegalRequest
  | .busNotOpen => some .busNotOpen
  | .busUnavailable => some .busUnavailable
  | .invalidSlot => none
  | .invalidGeometry => some .invalidGeometry

/-- The response code OK. -/
def respOk : BitVec 3 := 0#3
/-- The response code FRAME_DROPPED (60_exceptions.md R200). -/
def respFrameDropped : BitVec 3 := 6#3

end Sys2Proof.Machine
end

