-- ==== Sys2Proof/Machine/Ops.lean ====
section
/-! DEFINITION. The shared operations: events, raising an error and completing a request (60_exceptions.md R203, R204), Wait
(70_reset_and_hazards.md R250), SendFrame and its retries (40_transport.md R105), the primitives, the run of a request's
primitives, and the checks every request passes (60_exceptions.md R202). -/

namespace Sys2Proof.Machine

/-! ## Events -/

/-- Emit(ev): append to the trace (00_scope.md R8). -/
def emit (e : Event) (s : State) : State := { s with trace := s.trace ++ [e] }

/-- A LOG event, only when CFG.DEBUG = 1 (60_exceptions.md R213). -/
def logEvent (k : LogKind) (info : Half) (s : State) : State := if s.cfg.debug then emit (.log k info) s else s

/-! ## Ending a request -/

/-- `raise E(info)`: the flag of E, its LOG if it has one, and the response code; the caller runs no further primitive of the
request (60_exceptions.md R203). The block has no trap: nothing is saved and nothing is entered (R209). -/
def raiseError (e : ErrorKind) (info : Half) (s : State) : State :=
  let t := setErrorFlag e s
  let u := match errorLog e with
    | some k => logEvent k info t
    | none => t
  { u with seq := { u.seq with raised := some e } }

/-- The response code of the request in progress (60_exceptions.md R204). -/
def respCode (q : Seq) : BitVec 3 :=
  match q.raised with
  | some e => errorCode e
  | none => if q.dropped then respFrameDropped else respOk

/-- `Emit(RESP(code)) ; LAST_RESP <- code ; BUSY <- 0 ; cur_dropped <- 0` (60_exceptions.md R204). -/
def complete (s : State) : State :=
  { emit (.resp (respCode s.seq)) s with lastResp := respCode s.seq, busy := false, seq := Seq.idle }

/-! ## Primitives -/

/-- How a primitive ends: it has completed, or it waits for the world outside (its phase says for what). -/
inductive Progress where
  | done (s : State)
  | blocked (s : State)
  deriving DecidableEq, Repr

/-- The primitive in progress is at phase `p`. -/
def setPhase (p : Phase) (s : State) : State := { s with seq := { s.seq with phase := p } }

/-- Count ms_tick pulses until `left` are counted; where fewer arrive, wait at `ph` of what is left
(70_reset_and_hazards.md R250). -/
def countTicks (left : Nat) (ph : Nat → Phase) (s : State) : Progress :=
  if left ≤ s.ticks then .done { s with ticks := s.ticks - left }
  else .blocked (setPhase (ph (left - s.ticks)) { s with ticks := 0 })

/-- Wait(d): nothing for d = 0; else DELAY(d), and d + 1 pulses (70_reset_and_hazards.md R250). -/
def doWait (d : Half) (ph : Nat → Phase) (s : State) : Progress :=
  if d = 0#16 then .done s else countTicks (d.toNat + 1) ph (emit (.delay d) s)

/-- A bounded SendFrame whose limit is spent: F_FRAME_DROPPED, cur_dropped and the LOG (40_transport.md R105). -/
def dropFrame (st : Byte) (s : State) : State :=
  logEvent .frameDropped (st.setWidth 16) { s with fFrameDropped := true, seq := { s.seq with dropped := true } }

/-- One XferFrame attempt answered with `st` (40_transport.md R103). -/
def answered (f : Frame) (st : Byte) (rest : List Byte) (s : State) : State :=
  emit (.frame s.cfg.addr f st) { s with statuses := rest }

/-- The loop of SendFrame (40_transport.md R105) on the answers `sts` the bus master gives, with `n` retries made so far.
With no answer left the attempt stays at the bus master. -/
def attempts (f : Frame) : List Byte → Half → State → Progress
  | [], n, s => .blocked (setPhase (.attempt f n) s)
  | st :: rest, n, s =>
    if st = 0#8 then .done (answered f st rest s)
    else if s.cfg.retryLimit ≠ 0#16 ∧ n = s.cfg.retryLimit then
      .done (dropFrame st (countFailure (answered f st rest s)))
    else
      match doWait s.cfg.retryDelayMs (.retryWait f (satInc16 n))
          (logEvent .retry (st ++ capByte (satInc16 n)) (countFailure (answered f st rest s))) with
      | .done t => attempts f rest (satInc16 n) t
      | .blocked t => .blocked t

/-- SendFrame(f) (40_transport.md R105). -/
def sendFrame (f : Frame) (s : State) : Progress := attempts f s.statuses 0#16 s

/-- SendCmd(b): one command byte, the frame built once from BL_MASK (41_encoder.md R121, R122). -/
def sendCommand (b : Byte) (s : State) : Progress := sendFrame (encodeByte b false s.blMask) s

/-- SendData(b): one data byte (41_encoder.md R121, R123). -/
def sendDataByte (b : Byte) (s : State) : Progress := sendFrame (encodeByte b true s.blMask) s

/-- Capture the next payload byte and send it as data (30_encoding.md R73). The byte is captured at the start of the frame
that carries it (log 6, DESIGN CHOICE). -/
def sendNextPayload (s : State) : Progress :=
  match s.payload with
  | [] => .blocked (setPhase .payloadSend s)
  | b :: rest => sendDataByte b { s with payload := rest }

/-- Capture the next payload byte and discard it (30_encoding.md R73). -/
def dropNextPayload (s : State) : Progress :=
  match s.payload with
  | [] => .blocked (setPhase .payloadDrop s)
  | _ :: rest => .done { s with payload := rest }

/-- BusClaim and OPEN's two outcomes (40_transport.md R100, R101). OPEN has no primitive after it, so the raise of
BusUnavailable leaves none to run. -/
def claimBus (s : State) : Progress :=
  match s.claims with
  | [] => .blocked (setPhase .claiming s)
  | ok :: rest =>
    let t := emit (.claim s.cfg.addr s.cfg.speed ok) { s with claims := rest }
    if ok then .done { t with busOpen := true }
    else .done (raiseError .busUnavailable (s.cfg.addr.setWidth 16) t)

/-- BusRelease ; BUS_OPEN <- 0 (40_transport.md R102). -/
def releaseBus (s : State) : State := { emit .release s with busOpen := false }

/-- One primitive (00_scope.md R8). -/
def runPrim : Prim → State → Progress
  | .sendCmd b, s => sendCommand b s
  | .sendData b, s => sendDataByte b s
  | .sendPayload, s => sendNextPayload s
  | .dropPayload, s => dropNextPayload s
  | .wait ms, s => doWait ms .waiting s
  | .setInitState st, s => .done { s with initState := st }
  | .setCursorType ct, s => .done { s with cursorType := ct, ctValid := true }
  | .setEntryMode m, s => .done { s with entryMode := m, emValid := true }
  | .setBacklight on, s => .done { s with blMask := blMaskOf on }
  | .claimBus, s => claimBus s
  | .releaseBus, s => .done (releaseBus s)

/-- Run the primitives in order to the end of the request, or until one waits for the world outside (10_state.md R32, R37;
70_reset_and_hazards.md R245). -/
def run : List Prim → State → State
  | [], s => complete s
  | p :: ps, s =>
    match runPrim p s with
    | .done t => run ps t
    | .blocked t => { t with seq := { t.seq with todo := ps } }

/-- Go on after the primitive in progress: with the primitives after it when it has completed. -/
def continueRun (ps : List Prim) : Progress → State
  | .done t => run ps t
  | .blocked t => { t with seq := { t.seq with todo := ps } }

/-! ## The checks, and a request as a whole -/

/-- The primitive sends a frame. -/
def sendsFrame : Prim → Bool
  | .sendCmd _ => true
  | .sendData _ => true
  | .sendPayload => true
  | .dropPayload => false
  | .wait _ => false
  | .setInitState _ => false
  | .setCursorType _ => false
  | .setEntryMode _ => false
  | .setBacklight _ => false
  | .claimBus => false
  | .releaseBus => false

/-- What a request's rule gives: its word, whether check 1 fails, the error and LOG info of check 2 if it fails, whether it
is INIT (which the readiness mark leaves out), and its body (60_exceptions.md R202; the template of 40_transport.md). -/
structure Plan where
  word : ReqWord
  illegal : Bool
  range : Option (ErrorKind × Half)
  isInit : Bool
  body : List Prim
  deriving DecidableEq, Repr

/-- The request would send a frame (60_exceptions.md R206). -/
def wouldSend (p : Plan) : Bool := p.body.any sendsFrame

/-- BUSY <- 1, with the request captured and cur_dropped 0 (30_encoding.md R71; 60_exceptions.md R204). -/
def accept (w : ReqWord) (s : State) : State := { s with busy := true, seq := { Seq.idle with word := w } }

/-- A request ended by a raise of one of the checks 1 to 3: the record, then the payload its OPC implies is consumed and
discarded, then RESP (30_encoding.md R73; 60_exceptions.md R203, R205; log 7, 8). -/
def endWith (e : ErrorKind) (info : Half) (w : ReqWord) (s : State) : State :=
  run (List.replicate (payloadLen w) .dropPayload) (raiseError e info s)

/-- LOG(ILLEGAL_REQUEST, req_word[15:0]) (60_exceptions.md R214). -/
def wordInfo (w : ReqWord) : Half := w.extractLsb' 0 16

/-- The body of a request that passed the checks, after the readiness mark of 60_exceptions.md R207. -/
def runBody (p : Plan) (s : State) : State :=
  run p.body (if wouldSend p && !p.isInit then markNotReady s else s)

/-- The checks of 60_exceptions.md R202 in their order, then the body. -/
def checked (p : Plan) (s : State) : State :=
  if p.illegal then endWith .illegalRequest (wordInfo p.word) p.word s
  else match p.range with
    | some (e, info) => endWith e info p.word s
    | none =>
      if wouldSend p && !s.busOpen then
        endWith .busNotOpen ((reqOpc p.word).setWidth 16) p.word s
      else runBody p s

/-- One request, from its acceptance. While BUSY = 1 the port accepts none and nothing changes (30_encoding.md R71). -/
def request (p : Plan) (s : State) : Result :=
  if s.busy then .next s else .next (checked p (accept p.word s))

/-- A request word no request has (30_encoding.md R82): check 1 fails (60_exceptions.md R205). -/
def illegalWord (w : ReqWord) (s : State) : Result :=
  request { word := w, illegal := true, range := none, isInit := false, body := [] } s

end Sys2Proof.Machine
end

