-- ==== Sys2Proof/Machine/Bytes.lean ====
section
/-! DEFINITION. SEND_CMD, SEND_CHAR and SEND_STRING (41_encoder.md). -/

namespace Sys2Proof.Machine

/-- SEND_CMD (41_encoder.md R125): one raw command byte, no delay. -/
def execSendCmd (c : Byte) (s : State) : Result :=
  request { word := encode (.sendCmd c), illegal := false, range := none, isInit := false, body := [.sendCmd c] } s

/-- SEND_CHAR (41_encoder.md R126): one data byte. -/
def execSendChar (ch : Byte) (s : State) : Result :=
  request { word := encode (.sendChar ch), illegal := false, range := none, isInit := false, body := [.sendData ch] } s

/-- SEND_STRING (41_encoder.md R127): the n payload bytes as data, in order. -/
def execSendString (n : Byte) (s : State) : Result :=
  request { word := encode (.sendString n), illegal := false, range := none, isInit := false,
            body := List.replicate n.toNat .sendPayload } s

end Sys2Proof.Machine
end

