-- ==== Sys2Proof/Machine/Display.lean ====
section
/-! DEFINITION. The logical display operations (43_display_ops.md). -/

namespace Sys2Proof.Machine

/-! ## Clearing -/

/-- SendCmd(RowAddr(row, 0)), then COLS spaces (43_display_ops.md R160, R161); nothing where the row has no address, which
the geometry checks exclude. -/
def clearRow (cols row : Byte) : List Prim :=
  match rowAddr? cols row 0#8 with
  | some a => .sendCmd a :: List.replicate cols.toNat (.sendData spaceChar)
  | none => []

/-- CLEAR_SCREEN (43_display_ops.md R160). -/
def execClearScreen (s : State) : Result :=
  request { word := encode .clearScreen, illegal := false,
            range := if geometryOk s.cfg then none else some (.invalidGeometry, 0x05#8 ++ s.cfg.rows.setWidth 8),
            isInit := false,
            body := (rowsInOrder s.par.rowOrder s.cfg.rows.toNat).flatMap (clearRow s.cfg.cols) } s

/-- CLEAR_LINE (43_display_ops.md R161). -/
def execClearLine (row : Byte) (s : State) : Result :=
  request { word := encode (.clearLine row), illegal := false,
            range := if rowAddressable s.cfg.cols row then none else some (.invalidGeometry, 0x12#8 ++ row),
            isInit := false, body := clearRow s.cfg.cols row } s

/-- CLEAR_SCREEN_CMD (43_display_ops.md R162). -/
def execClearScreenCmd (s : State) : Result :=
  request { word := encode .clearScreenCmd, illegal := false, range := none, isInit := false,
            body := [.sendCmd s.par.cmd.clear, .wait s.par.clearSettleMs] } s

/-! ## Positioning -/

/-- HOME (43_display_ops.md R163). -/
def execHome (s : State) : Result :=
  request { word := encode .home, illegal := false, range := none, isInit := false,
            body := [.sendCmd s.par.cmd.home, .wait s.par.homeSettleMs] } s

/-- GOTO (43_display_ops.md R164, R165): the row is checked, the column is not. -/
def execGoto (row col : Byte) (s : State) : Result :=
  request { word := encode (.goto row col), illegal := false,
            range := if rowAddressable s.cfg.cols row then none else some (.invalidGeometry, 0x08#8 ++ row),
            isInit := false, body := ((rowAddr? s.cfg.cols row col).map Prim.sendCmd).toList } s

/-- MOVE_CURSOR (43_display_ops.md R166). -/
def execMoveCursor (dir count : Byte) (s : State) : Result :=
  request { word := encode (.moveCursor dir count), illegal := !(Instr.moveCursor dir count).wellFormed, range := none,
            isInit := false, body := List.replicate count.toNat (.sendCmd (moveCmd s.par.cmd (enum1 dir))) } s

/-- SCROLL (43_display_ops.md R167). -/
def execScroll (dir count : Byte) (s : State) : Result :=
  request { word := encode (.scroll dir count), illegal := !(Instr.scroll dir count).wellFormed, range := none,
            isInit := false, body := List.replicate count.toNat (.sendCmd (scrollCmd s.par.cmd (enum1 dir))) } s

/-- CHANGE_ENTRY_MODE (43_display_ops.md R169). -/
def execChangeEntryMode (mode : Byte) (s : State) : Result :=
  request { word := encode (.changeEntryMode mode), illegal := !(Instr.changeEntryMode mode).wellFormed, range := none,
            isInit := false, body := [.sendCmd (entryCmd s.par.cmd (enum2 mode)), .setEntryMode (enum2 mode)] } s

/-! ## Custom glyphs -/

/-- The slot check of R171 and R172: slot < 8, else InvalidSlot, which has no LOG. -/
def slotCheck (slot : Byte) : Option (ErrorKind × Half) :=
  if slot.toNat < cgramSlots then none else some (.invalidSlot, 0#16)

/-- CREATE_CUSTOM_CHAR (43_display_ops.md R170, R171): the glyph bytes are sent unmasked. -/
def execCreateCustomChar (slot : Byte) (s : State) : Result :=
  request { word := encode (.createCustomChar slot), illegal := false, range := slotCheck slot, isInit := false,
            body := .sendCmd (cgramCmd slot) :: List.replicate glyphBytes .sendPayload } s

/-- PRINT_CUSTOM_CHAR (43_display_ops.md R172). -/
def execPrintCustomChar (slot : Byte) (s : State) : Result :=
  request { word := encode (.printCustomChar slot), illegal := false, range := slotCheck slot, isInit := false,
            body := [.sendData slot] } s

/-! ## Backlight and display -/

/-- BACKLIGHT_SET (43_display_ops.md R173): stores the mask and sends nothing. -/
def execBacklightSet (on : Byte) (s : State) : Result :=
  request { word := encode (.backlightSet on), illegal := !(Instr.backlightSet on).wellFormed, range := none,
            isInit := false, body := [.setBacklight (enum1 on)] } s

/-- DISPLAY_ON (43_display_ops.md R174). -/
def execDisplayOn (on : Byte) (s : State) : Result :=
  request { word := encode (.displayOn on), illegal := !(Instr.displayOn on).wellFormed, range := none,
            isInit := false, body := [.sendCmd (displayCmd s.par.cmd (enum1 on)), .wait s.par.displayMs] } s

end Sys2Proof.Machine
end

