-- ==== Sys2Proof/Machine/Init.lean ====
section
/-! DEFINITION. INIT, RESET_SCREEN and SHUTDOWN (42_init.md). -/

namespace Sys2Proof.Machine

/-- The seven steps of INIT for cursor type `ct` (42_init.md R140, R141). -/
def initBody (p : Params) (ct : BitVec 2) : List Prim :=
  [.setInitState .uninitialized, .wait p.powerOnMs,
   .sendCmd p.cmd.home, .wait p.initGapMs,
   .sendCmd p.cmd.home, .wait p.initGapMs,
   .sendCmd p.cmd.home, .wait p.initGapMs,
   .sendCmd p.cmd.functionSet, .setInitState .nibbleModeNegotiated,
   .sendCmd p.cmd.displayOn,
   .sendCmd (cursorCmd p.cmd ct), .setCursorType ct,
   .sendCmd (entryCmd p.cmd defaultEntry), .setEntryMode defaultEntry, .setInitState .configured,
   .sendCmd p.cmd.clear, .wait p.initClearMs, .setInitState .ready]

/-- INIT (42_init.md R140 to R143). -/
def execInit (ct : Byte) (s : State) : Result :=
  request { word := encode (.init ct), illegal := !(Instr.init ct).wellFormed, range := none, isInit := true,
            body := initBody s.par (enum2 ct) } s

/-- The commands of RESET_SCREEN, the settle wait after its clear (42_init.md R144). -/
def resetScreenBody (p : Params) (ct : BitVec 2) : List Prim :=
  [.sendCmd p.cmd.functionSet, .sendCmd p.cmd.displayOn,
   .sendCmd (cursorCmd p.cmd ct), .setCursorType ct,
   .sendCmd p.cmd.clear, .wait p.clearSettleMs,
   .sendCmd (entryCmd p.cmd defaultEntry), .setEntryMode defaultEntry]

/-- RESET_SCREEN (42_init.md R144). -/
def execResetScreen (ct : Byte) (s : State) : Result :=
  request { word := encode (.resetScreen ct), illegal := !(Instr.resetScreen ct).wellFormed, range := none, isInit := false,
            body := resetScreenBody s.par (enum2 ct) } s

/-- SHUTDOWN (42_init.md R145): display off, the wait, release, and INIT_STATE back to Uninitialized. -/
def execShutdown (s : State) : Result :=
  request { word := encode .shutdown, illegal := false, range := none, isInit := false,
            body := [.sendCmd s.par.cmd.displayOff, .wait s.par.displayMs, .releaseBus, .setInitState .uninitialized] } s

end Sys2Proof.Machine
end

