-- ==== Sys2Proof/Machine/Transport.lean ====
section
/-! DEFINITION. OPEN and CLOSE (40_transport.md). -/

namespace Sys2Proof.Machine

/-- OPEN (40_transport.md R100): illegal while the bus is open; else one claim, whose result decides. -/
def execOpenBus (s : State) : Result :=
  request { word := encode .openBus, illegal := s.busOpen, range := none, isInit := false, body := [.claimBus] } s

/-- CLOSE (40_transport.md R102): releases an open bus and does nothing else. -/
def execClose (s : State) : Result :=
  request { word := encode .close, illegal := false, range := none, isInit := false,
            body := if s.busOpen then [.releaseBus] else [] } s

end Sys2Proof.Machine
end

