-- ==== Sys2Proof/Machine/Dispatch.lean ====
section
/-! DEFINITION. The meaning of every request, one arm each. -/

namespace Sys2Proof.Machine

def exec (i : Instr) (s : State) : Host.Outcome State Fault Refusal :=
  match i with
  | .openBus => Sys2Proof.Machine.execOpenBus s
  | .close => Sys2Proof.Machine.execClose s
  | .init ct => Sys2Proof.Machine.execInit ct s
  | .resetScreen ct => Sys2Proof.Machine.execResetScreen ct s
  | .clearScreen => Sys2Proof.Machine.execClearScreen s
  | .clearScreenCmd => Sys2Proof.Machine.execClearScreenCmd s
  | .home => Sys2Proof.Machine.execHome s
  | .goto row col => Sys2Proof.Machine.execGoto row col s
  | .sendChar ch => Sys2Proof.Machine.execSendChar ch s
  | .sendString n => Sys2Proof.Machine.execSendString n s
  | .moveCursor dir count => Sys2Proof.Machine.execMoveCursor dir count s
  | .scroll dir count => Sys2Proof.Machine.execScroll dir count s
  | .changeEntryMode mode => Sys2Proof.Machine.execChangeEntryMode mode s
  | .createCustomChar slot => Sys2Proof.Machine.execCreateCustomChar slot s
  | .printCustomChar slot => Sys2Proof.Machine.execPrintCustomChar slot s
  | .backlightSet on => Sys2Proof.Machine.execBacklightSet on s
  | .displayOn on => Sys2Proof.Machine.execDisplayOn on s
  | .clearLine row => Sys2Proof.Machine.execClearLine row s
  | .shutdown => Sys2Proof.Machine.execShutdown s
  | .sendCmd c => Sys2Proof.Machine.execSendCmd c s

end Sys2Proof.Machine
end

