-- ==== Sys2Proof/Machine/Resume.lean ====
section
/-! DEFINITION. A request in progress (BUSY = 1) goes on when the world outside supplies what it waits for, and is stuck until
then (70_reset_and_hazards.md R258). -/

namespace Sys2Proof.Machine

/-- The rest of SendFrame(f) after the Wait before a retry (40_transport.md R105). -/
def retryAgain (f : Frame) (n : Half) : Progress → Progress
  | .done t => attempts f t.statuses n t
  | .blocked t => .blocked t

/-- One step of a request in progress. It takes every input offered that it needs, and has no successor when the one it
waits for is missing (70_reset_and_hazards.md R258). -/
def resume (s : State) : Result :=
  let t := setPhase .start s
  match s.seq.phase with
  | .start => .next (run s.seq.todo t)
  | .attempt f n =>
    if s.statuses = [] then .fault .attemptUnanswered else .next (continueRun s.seq.todo (attempts f s.statuses n t))
  | .retryWait f n left =>
    if s.ticks = 0 ∧ left ≠ 0 then .fault .tickStopped
    else .next (continueRun s.seq.todo (retryAgain f n (countTicks left (.retryWait f n) t)))
  | .waiting left =>
    if s.ticks = 0 ∧ left ≠ 0 then .fault .tickStopped
    else .next (continueRun s.seq.todo (countTicks left .waiting t))
  | .claiming =>
    if s.claims = [] then .fault .claimUnanswered else .next (continueRun s.seq.todo (claimBus t))
  | .payloadSend =>
    if s.payload = [] then .fault .payloadMissing else .next (continueRun s.seq.todo (sendNextPayload t))
  | .payloadDrop =>
    if s.payload = [] then .fault .payloadMissing else .next (continueRun s.seq.todo (dropNextPayload t))

end Sys2Proof.Machine
end

