-- ==== Sys2Proof/Machine/Step.lean ====
section
/-! DEFINITION. One step: the request in progress goes on; else the next request offered is accepted and run (30_encoding.md
R71; 10_state.md R37); else the block stays idle (70_reset_and_hazards.md R240; log 10). -/

namespace Sys2Proof.Machine

/-- A request word, decoded and run; an illegal one raises IllegalRequest (60_exceptions.md R205). -/
def runWord (w : ReqWord) (s : State) : Result :=
  match decode w with
  | .ok i => exec i s
  | .error _ => illegalWord w s

/-- One step of the block. -/
def step (s : State) : Result :=
  if s.busy then resume s
  else match s.requests with
    | [] => .next s
    | w :: rest => runWord w { s with requests := rest }

/-- The same state, idle, with the word offered as the next request and its payload, all zeros, as the next payload bytes
(log 11). -/
def State.withFetchWord (s : State) (nbits w : Nat) : State :=
  let word := BitVec.ofNat 32 (w % 2 ^ nbits)
  { s with busy := false, requests := word :: s.requests,
           payload := List.replicate (payloadLen word) 0#8 ++ s.payload }

end Sys2Proof.Machine
end

