-- ==== Sys2Proof/Machine/Inputs.lean ====
section
/-! DEFINITION. What the world outside can do to the block: offer a request, a payload byte, an answer of the bus master, a
millisecond tick (30_encoding.md R70 to R73; log 2, 3), and reset it (70_reset_and_hazards.md R240, R241; log 13). -/

namespace Sys2Proof.Machine

/-- The caller offers a request word; it waits its turn (30_encoding.md R71). -/
def offerRequest (w : ReqWord) (s : State) : State := { s with requests := s.requests ++ [w] }

/-- The caller offers payload bytes (30_encoding.md R73). -/
def offerPayload (bs : List Byte) (s : State) : State := { s with payload := s.payload ++ bs }

/-- The bus master answers attempts (30_encoding.md R72; 40_transport.md R103). -/
def offerStatus (sts : List Byte) (s : State) : State := { s with statuses := s.statuses ++ sts }

/-- The bus master answers claims (40_transport.md R101). -/
def offerClaim (oks : List Bool) (s : State) : State := { s with claims := s.claims ++ oks }

/-- ms_tick pulses arrive during Waits (30_encoding.md R70). -/
def offerTicks (n : Nat) (s : State) : State := { s with ticks := s.ticks + n }

/-- rst, in any state: the registers take their reset values with the configuration inputs `c`; a request in progress is
abandoned without RESP; no event is emitted and nothing outside the block changes (70_reset_and_hazards.md R240 to R242). -/
def applyReset (c : Cfg) (s : State) : State :=
  { State.resetWith c s.par with
    trace := s.trace, requests := s.requests, payload := s.payload, statuses := s.statuses,
    claims := s.claims, ticks := s.ticks }

end Sys2Proof.Machine
end

