-- ==== Sys2Proof/Machine/Ports.lean ====
section
/-! DEFINITION. What the block shows at its ports: the request, payload and transport handshakes (30_encoding.md R70 to R73)
and the status read port (10_state.md R35). All are views of the state and change nothing. -/

namespace Sys2Proof.Machine

/-- req_ready = ¬BUSY (30_encoding.md R71). -/
def reqReady (s : State) : Bool := !s.busy

/-- pl_ready, high while the request in progress awaits a payload byte (30_encoding.md R73; log 6). -/
def plReady (s : State) : Bool := s.busy && (s.seq.phase == .payloadSend || s.seq.phase == .payloadDrop)

/-- xfer_data: frame byte bi at bits [8i+7:8i] (30_encoding.md R72; 20_memory.md R56). -/
def xferData (f : Frame) : BitVec 32 := f.b3 ++ f.b2 ++ f.b1 ++ f.b0

/-- xfer_addr and xfer_data of the attempt outstanding at the bus master, if one is (30_encoding.md R72). -/
def xferOutstanding (s : State) : Option (Addr7 × BitVec 32) :=
  if s.busy then
    match s.seq.phase with
    | .attempt f _ => some (s.cfg.addr, xferData f)
    | _ => none
  else none

/-- claim_addr and claim_speed of the claim outstanding at the bus master, if one is (30_encoding.md R72). -/
def claimOutstanding (s : State) : Option (Addr7 × Half) :=
  if s.busy && s.seq.phase == .claiming then some (s.cfg.addr, s.cfg.speed) else none

/-- log_kind and log_info of a LOG event (30_encoding.md R70; 60_exceptions.md R214). -/
def logPort : Event → Option (BitVec 3 × Half)
  | .log k info => some (logCode k, info)
  | .frame _ _ _ => none
  | .delay _ => none
  | .claim _ _ _ => none
  | .release => none
  | .resp _ => none

/-- rsp_code of a RESP event (30_encoding.md R70; 60_exceptions.md R204). -/
def respPort : Event → Option (BitVec 3)
  | .resp c => some c
  | .frame _ _ _ => none
  | .delay _ => none
  | .claim _ _ _ => none
  | .release => none
  | .log _ _ => none

/-- STATUS, address 0 of the status port, from bit 20 down to bit 0 (10_state.md R35). -/
def statusWord (s : State) : BitVec 32 :=
  0#11 ++ s.lastResp ++ BitVec.ofBool s.emValid ++ s.entryMode ++ BitVec.ofBool s.ctValid ++ s.cursorType
    ++ BitVec.ofBool s.wInvalidSlot ++ BitVec.ofBool s.wInvalidGeometry ++ BitVec.ofBool s.fFrameDropped
    ++ BitVec.ofBool s.fNotReadyUse ++ BitVec.ofBool s.fBusNotOpen ++ BitVec.ofBool s.fIllegalRequest
    ++ BitVec.ofBool s.fBusUnavailable ++ BitVec.ofBool (s.blMask == blOnMask) ++ BitVec.ofBool s.busy
    ++ BitVec.ofBool s.busOpen ++ initCode s.initState

/-- STS_DATA for STS_ADDR (10_state.md R35); bits not listed read as 0. -/
def statusRead (addr : BitVec 3) (s : State) : BitVec 32 :=
  if addr = 0#3 then statusWord s
  else if addr = 1#3 then s.errcnt
  else if addr = 2#3 then 0#16 ++ s.cfg.cols ++ 0#5 ++ s.cfg.rows
  else if addr = 3#3 then s.cfg.speed ++ 0#9 ++ s.cfg.addr
  else if addr = 4#3 then s.cfg.retryDelayMs ++ s.cfg.retryLimit
  else if addr = 5#3 then 0#30 ++ BitVec.ofBool s.cfg.blInit ++ BitVec.ofBool s.cfg.debug
  else if addr = 6#3 then 0#24 ++ s.blMask
  else 0#32

end Sys2Proof.Machine
end

