-- ==== Sys2Proof/Safety.lean ====
section
/-! DEFINITION. What counts as a safe run, and the terms the claims are stated in: illegal words, the premises claims about the
LCD take, the invariant of the block, and the events a request leaves in the trace. -/

namespace Sys2Proof.Machine

/-! ## Premises -/

/-- "no fault recorded" (10_state.md R26). -/
def noFaultRecorded (s : State) : Bool :=
  !s.fBusUnavailable && !s.fIllegalRequest && !s.fBusNotOpen && !s.fNotReadyUse && !s.fFrameDropped

/-- The premises a claim about the LCD after a run from `s` to `t` takes: no use before Ready, no dropped frame, no failed
attempt (60_exceptions.md R207; 42_init.md R143; 70_reset_and_hazards.md R256). -/
def lcdPremises (s t : State) : Bool := !t.fNotReadyUse && !t.fFrameDropped && decide (t.errcnt = s.errcnt)

/-- An illegal request word, item by item as 30_encoding.md R82 lists them, with the must-be-0 fields of R75. -/
def IllegalWord (w : ReqWord) : Prop :=
  reqOpc w = 0x00#8 ∨ 0x15 ≤ (reqOpc w).toNat
  ∨ reqRsv w ≠ 0#8
  ∨ (reqOpc w ∈ [0x01#8, 0x02#8, 0x05#8, 0x06#8, 0x07#8, 0x13#8] ∧ reqA w ≠ 0#8)
  ∨ (reqOpc w ∉ [0x08#8, 0x0B#8, 0x0C#8] ∧ reqB w ≠ 0#8)
  ∨ (reqOpc w ∈ [0x03#8, 0x04#8, 0x0D#8] ∧ 4 ≤ (reqA w).toNat)
  ∨ (reqOpc w ∈ [0x0B#8, 0x0C#8, 0x10#8, 0x11#8] ∧ 2 ≤ (reqA w).toNat)

/-- A request that would send a frame if it passes checks 1 and 2, as 60_exceptions.md R206 lists them. -/
def wouldSendFrame : Instr → Bool
  | .openBus => false
  | .close => false
  | .init _ => true
  | .resetScreen _ => true
  | .clearScreen => true
  | .clearScreenCmd => true
  | .home => true
  | .goto _ _ => true
  | .sendChar _ => true
  | .sendString n => decide (1 ≤ n.toNat)
  | .moveCursor _ count => decide (1 ≤ count.toNat)
  | .scroll _ count => decide (1 ≤ count.toNat)
  | .changeEntryMode _ => true
  | .createCustomChar _ => true
  | .printCustomChar _ => true
  | .backlightSet _ => false
  | .displayOn _ => true
  | .clearLine _ => true
  | .shutdown => true
  | .sendCmd _ => true

/-- A row with an address on a display of `cols` columns: 1 and 2 always, 3 and 4 with 16 or 20 columns (20_memory.md R53). -/
def RowReachable (cols row : Byte) : Prop :=
  row = 1#8 ∨ row = 2#8 ∨ ((row = 3#8 ∨ row = 4#8) ∧ (cols = 16#8 ∨ cols = 20#8))

/-- A display CLEAR_SCREEN accepts (43_display_ops.md R160). -/
def GeometryValid (c : Cfg) : Prop :=
  1 ≤ c.rows.toNat ∧ c.rows.toNat ≤ 4 ∧ (3 ≤ c.rows.toNat → c.cols = 16#8 ∨ c.cols = 20#8)

/-- The request passes the range and geometry check, check 2 of 60_exceptions.md R202. -/
def PassesRange (i : Instr) (c : Cfg) : Prop :=
  match i with
  | .clearScreen => GeometryValid c
  | .goto row _ => RowReachable c.cols row
  | .clearLine row => RowReachable c.cols row
  | .createCustomChar slot => slot.toNat < 8
  | .printCustomChar slot => slot.toNat < 8
  | _ => True

/-! ## Frames and events -/

/-- The shape every frame on the bus has (41_encoder.md R124; 30_encoding.md R86): each nibble twice, EN high then low, RW 0,
RS and BL constant. -/
def frameShape (f : Frame) : Bool :=
  (lcdPins f.b0).data == (lcdPins f.b1).data && (lcdPins f.b2).data == (lcdPins f.b3).data
    && (lcdPins f.b0).en && !(lcdPins f.b1).en && (lcdPins f.b2).en && !(lcdPins f.b3).en
    && ([f.b0, f.b1, f.b2, f.b3].all fun b => !(lcdPins b).rw)
    && ([f.b1, f.b2, f.b3].all fun b => (lcdPins b).rs == (lcdPins f.b0).rs)
    && ([f.b1, f.b2, f.b3].all fun b => (lcdPins b).bl == (lcdPins f.b0).bl)

/-- The event is a transport attempt. -/
def isAttempt : Event → Bool
  | .frame _ _ _ => true
  | .delay _ => false
  | .claim _ _ _ => false
  | .release => false
  | .log _ _ => false
  | .resp _ => false

/-- The event is a transport attempt that failed (40_transport.md R103). -/
def isFailedAttempt : Event → Bool
  | .frame _ _ st => st != 0#8
  | .delay _ => false
  | .claim _ _ _ => false
  | .release => false
  | .log _ _ => false
  | .resp _ => false

/-- The event ends a frame in a session with CFG.DEBUG = 1: an attempt that succeeded, or the LOG of a drop (40_transport.md
R105). Each SendFrame that returns emits exactly one. -/
def endsFrame : Event → Bool
  | .frame _ _ st => st == 0#8
  | .log .frameDropped _ => true
  | .log .retry _ => false
  | .log .invalidGeometry _ => false
  | .log .busUnavailable _ => false
  | .log .illegalRequest _ => false
  | .log .busNotOpen _ => false
  | .delay _ => false
  | .claim _ _ _ => false
  | .release => false
  | .resp _ => false

/-- The event is a LOG. -/
def isLog : Event → Bool
  | .log _ _ => true
  | .frame _ _ _ => false
  | .delay _ => false
  | .claim _ _ _ => false
  | .release => false
  | .resp _ => false

/-- The event is a RESP. -/
def isResp : Event → Bool
  | .resp _ => true
  | .frame _ _ _ => false
  | .delay _ => false
  | .claim _ _ _ => false
  | .release => false
  | .log _ _ => false

/-- A counter of 32 bits that saturates, after `k` increments (10_state.md R25). -/
def satAdd32 (x : BitVec 32) (k : Nat) : BitVec 32 := BitVec.ofNat 32 (min (x.toNat + k) 0xFFFFFFFF)

/-- The pulses Wait(d) counts (70_reset_and_hazards.md R250). -/
def waitTicks (d : Half) : Nat := if d = 0#16 then 0 else d.toNat + 1

/-- The events of Wait(d) (70_reset_and_hazards.md R250). -/
def waitEvents (d : Half) : List Event := if d = 0#16 then [] else [.delay d]

/-- The LOG of a session with CFG.DEBUG as given (60_exceptions.md R213). -/
def logEvents (debug : Bool) (k : LogKind) (info : Half) : List Event := if debug then [.log k info] else []

/-- The events of failed attempts of frame `f`, answered by `fails`, each with a retry after it; `n` retries came before
(40_transport.md R105). -/
def retryEvents (c : Cfg) (f : Frame) : Nat → List Byte → List Event
  | _, [] => []
  | n, st :: sts =>
    .frame c.addr f st :: (logEvents c.debug .retry (st ++ BitVec.ofNat 8 (min (n + 1) 255))
      ++ waitEvents c.retryDelayMs ++ retryEvents c f (n + 1) sts)

/-- A command frame delivered at the first attempt (41_encoder.md R122). -/
def cmdSent (s : State) (b : Byte) : Event := .frame s.cfg.addr (encodeByte b false s.blMask) 0#8

/-- A data frame delivered at the first attempt (41_encoder.md R123). -/
def dataSent (s : State) (b : Byte) : Event := .frame s.cfg.addr (encodeByte b true s.blMask) 0#8

/-! ## Frames and waits of each request (70_reset_and_hazards.md R254) -/

/-- The frames a request that passes its checks sends, absent retries (70_reset_and_hazards.md R254). -/
def frameCount (c : Cfg) : Instr → Nat
  | .openBus => 0
  | .close => 0
  | .backlightSet _ => 0
  | .init _ => 8
  | .resetScreen _ => 5
  | .shutdown => 1
  | .clearScreen => c.rows.toNat * (1 + c.cols.toNat)
  | .clearLine _ => 1 + c.cols.toNat
  | .clearScreenCmd => 1
  | .home => 1
  | .goto _ _ => 1
  | .sendChar _ => 1
  | .sendCmd _ => 1
  | .changeEntryMode _ => 1
  | .printCustomChar _ => 1
  | .sendString n => n.toNat
  | .moveCursor _ count => count.toNat
  | .scroll _ count => count.toNat
  | .createCustomChar _ => 9
  | .displayOn _ => 1

/-- The Waits a request that passes its checks makes, in order, absent retries (70_reset_and_hazards.md R254). -/
def waitsOf (p : Params) : Instr → List Half
  | .init _ => [p.powerOnMs, p.initGapMs, p.initGapMs, p.initGapMs, p.initClearMs]
  | .resetScreen _ => [p.clearSettleMs]
  | .shutdown => [p.displayMs]
  | .clearScreenCmd => [p.clearSettleMs]
  | .home => [p.homeSettleMs]
  | .displayOn _ => [p.displayMs]
  | .openBus => []
  | .close => []
  | .backlightSet _ => []
  | .clearScreen => []
  | .clearLine _ => []
  | .goto _ _ => []
  | .sendChar _ => []
  | .sendCmd _ => []
  | .changeEntryMode _ => []
  | .printCustomChar _ => []
  | .sendString _ => []
  | .moveCursor _ _ => []
  | .scroll _ _ => []
  | .createCustomChar _ => []

/-- The milliseconds of a DELAY event. -/
def delayOf? : Event → Option Half
  | .delay d => some d
  | .frame _ _ _ => none
  | .claim _ _ _ => none
  | .release => none
  | .log _ _ => none
  | .resp _ => none

/-- The byte with which CLEAR_SCREEN and CLEAR_LINE position at the start of a row: the row's base (20_memory.md R53). -/
def rowStart (cols row : Byte) : Byte :=
  if row = 1#8 then 0x80#8 else if row = 2#8 then 0xC0#8
  else if row = 3#8 then (if cols = 20#8 then 0x94#8 else 0x90#8)
  else (if cols = 20#8 then 0xD4#8 else 0xD0#8)

/-- The rows CLEAR_SCREEN clears on a display of `n` rows, 1 ≤ n ≤ 4, in the instance's order (43_display_ops.md R160). -/
def rowsCleared : RowOrder → Nat → List Byte
  | .ascending, n => [1#8, 2#8, 3#8, 4#8].take n
  | .descending, n => ([1#8, 2#8, 3#8, 4#8].take n).reverse

/-- CMD_CURSOR[ct] by the operand's value (30_encoding.md R76). -/
def cursorByte (c : CmdTable) (ct : Byte) : Byte :=
  match ct.toNat with
  | 0 => c.cursorHidden
  | 1 => c.cursorBlink
  | 2 => c.cursorUnderline
  | _ => c.cursorBoth

/-- CMD_ENTRY[m] by the operand's value (30_encoding.md R77). -/
def entryByte (c : CmdTable) (m : Byte) : Byte :=
  match m.toNat with
  | 0 => c.entryDec
  | 1 => c.entryDecShift
  | 2 => c.entryInc
  | _ => c.entryIncShift

/-! ## Conditions under which a request completes, and the state it leaves -/

/-- The block is idle with the bus open, the bus master answers the next `frames` attempts with success (and has `rest` to
answer after them), and at least `ticks` pulses arrive. -/
structure Served (s : State) (frames : Nat) (rest : List Byte) (ticks : Nat) : Prop where
  idle : s.busy = false
  busOpen : s.busOpen = true
  statuses : s.statuses = List.replicate frames 0#8 ++ rest
  ticks : ticks ≤ s.ticks

/-- As `Served` for one frame, but its first attempts fail with the statuses `fails`, no more of them than CFG.RETRY_LIMIT
allows retries; `ticks` counts the pulses beside those of the retry waits. -/
structure ServedAfter (s : State) (fails rest : List Byte) (ticks : Nat) : Prop where
  idle : s.busy = false
  busOpen : s.busOpen = true
  statuses : s.statuses = fails ++ 0#8 :: rest
  failed : ∀ st ∈ fails, st ≠ 0#8
  limit : s.cfg.retryLimit = 0#16 ∨ fails.length ≤ s.cfg.retryLimit.toNat
  ticks : fails.length * waitTicks s.cfg.retryDelayMs + ticks ≤ s.ticks

/-- The state after a request other than INIT that sent frames, all delivered: the events, RESP(OK), the answers and pulses
used, and the readiness mark (60_exceptions.md R204, R207). -/
def afterOk (s : State) (evs : List Event) (rest : List Byte) (ticks : Nat) : State :=
  { s with
    trace := s.trace ++ evs ++ [.resp 0#3], statuses := rest, ticks := s.ticks - ticks, lastResp := 0#3,
    fNotReadyUse := s.fNotReadyUse || s.initState != .ready, seq := Seq.idle }

/-- The state after a request that sent the one frame `f`, delivered after the failed attempts `fails`, then emitted `evs`
and used `ticks` pulses more. -/
def afterRetries (s : State) (f : Frame) (fails rest : List Byte) (evs : List Event) (ticks : Nat) : State :=
  { afterOk s (retryEvents s.cfg f 0 fails ++ [.frame s.cfg.addr f 0#8] ++ evs) rest
      (fails.length * waitTicks s.cfg.retryDelayMs + ticks) with
    errcnt := satAdd32 s.errcnt fails.length }

/-- The state after a request that a raise of check 1, 2 or 3 ended: the flag is set by the caller of this function, and
the request leaves its LOG, RESP and LAST_RESP, with its payload consumed (60_exceptions.md R203, R204). -/
def afterRaise (s : State) (logs : List Event) (code : BitVec 3) (payload : Nat) : State :=
  { s with
    trace := s.trace ++ logs ++ [.resp code], lastResp := code, payload := s.payload.drop payload, seq := Seq.idle }

/-! ## The invariant of the block -/

/-- The frame the phase holds. -/
def inFlight : Phase → Option Frame
  | .attempt f _ => some f
  | .retryWait f _ _ => some f
  | .start => none
  | .waiting _ => none
  | .claiming => none
  | .payloadSend => none
  | .payloadDrop => none

/-- Among the primitives, none that sends a frame follows one that releases the bus. -/
def framesBeforeRelease : List Prim → Bool
  | [] => true
  | p :: ps => (p != .releaseBus || !ps.any sendsFrame) && framesBeforeRelease ps

/-- The requests with this OPC that may send a frame: all but OPEN, CLOSE and BACKLIGHT_SET (60_exceptions.md R206). -/
def maySend (opc : Byte) : Bool := opc != 0x01#8 && opc != 0x02#8 && opc != 0x10#8

/-- The primitive is one that a request with this OPC may run: it sends a frame only where the request may, and writes only
registers the request may write (10_state.md R22 to R24, R28). -/
def mayRun (opc : Byte) : Prim → Bool
  | .setInitState _ => opc == 0x03#8 || opc == 0x13#8
  | .setCursorType _ => opc == 0x03#8 || opc == 0x04#8
  | .setEntryMode _ => opc == 0x03#8 || opc == 0x04#8 || opc == 0x0D#8
  | .setBacklight _ => opc == 0x10#8
  | .claimBus => opc == 0x01#8
  | .releaseBus => opc == 0x02#8 || opc == 0x13#8
  | .sendCmd _ => maySend opc
  | .sendData _ => maySend opc
  | .sendPayload => maySend opc
  | .dropPayload => true
  | .wait _ => true

/-- The frames the request in progress has not completed: those left to send, and the one in flight. -/
def framesLeft (q : Seq) : Nat := q.todo.countP sendsFrame + if (inFlight q.phase).isSome then 1 else 0

/-- INIT_STATE while INIT has `left` of its eight frames to complete (42_init.md R141): the fourth frame, function-set, ends
Uninitialized; the seventh, entry-mode, ends NibbleModeNegotiated; Ready comes only after the last Wait. -/
def initStateAt (left : Nat) : InitState :=
  if 5 ≤ left then .uninitialized else if 2 ≤ left then .nibbleModeNegotiated else .configured

/-- The primitive `p` of INIT's rule is the one in progress in phase `ph`. -/
def waitsIn (p : Prim) (ph : Phase) : Prop :=
  ((∃ b, p = .sendCmd b) ∧ ∃ f, inFlight ph = some f) ∨ ((∃ d, p = .wait d) ∧ ∃ left, ph = .waiting left)

/-- What holds between steps in every run from reset. -/
structure Inv (s : State) : Prop where
  /-- BL_MASK's "only legal values are BL_ON_MASK = 0x0F and BL_OFF_MASK = 0x07" (10_state.md R22). -/
  mask : s.blMask = 0x0F#8 ∨ s.blMask = 0x07#8
  /-- Response code 7 is never produced (60_exceptions.md R200). -/
  resp : s.lastResp ≠ 7#3
  /-- The transient state exists only while BUSY = 1 (10_state.md R31). -/
  idle : s.busy = false → s.seq = Seq.idle
  /-- Between steps a request in progress waits for something outside (70_reset_and_hazards.md R258). -/
  waits : s.busy = true → s.seq.phase ≠ .start
  /-- Every frame ever sent has the encoder's shape; RW is 0 in every byte (30_encoding.md R86). -/
  traceShape : ∀ a f st, Event.frame a f st ∈ s.trace → frameShape f = true
  /-- So has the frame in flight, and it is in flight on an open bus (40_transport.md R104). -/
  flight : ∀ f, inFlight s.seq.phase = some f → frameShape f = true ∧ s.busOpen = true
  /-- A payload byte awaited for sending, or a frame still to send, means the bus is open (40_transport.md R104). -/
  sending : s.seq.phase = .payloadSend ∨ s.seq.todo.any sendsFrame = true → s.busOpen = true
  /-- No frame is left to send after a release (40_transport.md R104). -/
  order : framesBeforeRelease s.seq.todo = true
  /-- A claim is outstanding only while the bus is closed, only for OPEN, and is OPEN's last primitive (40_transport.md R100). -/
  claiming : s.seq.phase = .claiming → s.busOpen = false ∧ reqOpc s.seq.word = 0x01#8 ∧ s.seq.todo = []
  /-- A claim is OPEN's first and only primitive, so none is left to run (40_transport.md R100). -/
  noClaimLeft : .claimBus ∉ s.seq.todo
  /-- A frame in flight, or a payload byte awaited for sending, is a request's that may send (60_exceptions.md R206). -/
  sender : (∃ f, inFlight s.seq.phase = some f) ∨ s.seq.phase = .payloadSend → maySend (reqOpc s.seq.word) = true
  /-- What is left to run is what the request may run (10_state.md R22 to R24, R28; 60_exceptions.md R206). -/
  writers : ∀ p ∈ s.seq.todo, mayRun (reqOpc s.seq.word) p = true
  /-- INIT in progress waits at one of the primitives of its rule, with those after it left to run (42_init.md R140). -/
  initRest : s.busy = true → reqOpc s.seq.word = 0x03#8 →
    ∃ ct before p, initBody s.par ct = before ++ p :: s.seq.todo ∧ waitsIn p s.seq.phase
  /-- INIT_STATE while INIT is in progress; it is never Ready there (42_init.md R141). -/
  initState : s.busy = true → reqOpc s.seq.word = 0x03#8 → s.initState = initStateAt (framesLeft s.seq)

/-- The OPC of the request a step runs: the one in progress, else the next one offered. -/
def runningOpc (s : State) : Option Byte :=
  if s.busy then some (reqOpc s.seq.word) else s.requests.head?.map reqOpc

/-- The request word an idle block accepts in its next step (30_encoding.md R71). -/
def acceptedWord (s : State) : Option ReqWord := if s.busy then none else s.requests.head?

/-! ## Comparing runs -/

/-- From `s`, `run` stopped at `t` to wait for an input. Whichever kind of input that is, offering it to `t` and stepping gives
what `run` gives with the input offered from the start. -/
structure TakesLateInputs (run : State → Result) (s t : State) : Prop where
  /-- An answer to an attempt (40_transport.md R103). -/
  status : ∀ sts, sts ≠ [] → (∃ f n, t.seq.phase = .attempt f n) → step (offerStatus sts t) = run (offerStatus sts s)
  /-- A payload byte, to be sent or discarded (30_encoding.md R73). -/
  payload : ∀ bs, bs ≠ [] → t.seq.phase = .payloadSend ∨ t.seq.phase = .payloadDrop →
    step (offerPayload bs t) = run (offerPayload bs s)
  /-- An answer to a claim (40_transport.md R101). -/
  claim : ∀ oks, oks ≠ [] → t.seq.phase = .claiming → step (offerClaim oks t) = run (offerClaim oks s)
  /-- Pulses of ms_tick, in a Wait of a rule or before a retry (70_reset_and_hazards.md R250). -/
  tick : ∀ n, n ≠ 0 → (∃ left, t.seq.phase = .waiting left ∨ ∃ f k, t.seq.phase = .retryWait f k left) →
    step (offerTicks n t) = run (offerTicks n s)

/-- The state without CFG.DEBUG and without LOG events (60_exceptions.md R213). -/
def withoutDebug (s : State) : State :=
  { s with cfg := { s.cfg with debug := false }, trace := s.trace.filter fun e => !isLog e }

/-- The state with the flags and records that no request reads (10_state.md R25 to R29, R33) set to fixed values. -/
def withoutRecords (s : State) : State :=
  { s with
    errcnt := 0#32, fBusUnavailable := false, fIllegalRequest := false, fBusNotOpen := false, fNotReadyUse := false,
    fFrameDropped := false, wInvalidGeometry := false, wInvalidSlot := false, cursorType := 0#2, ctValid := false,
    entryMode := 0#2, emValid := false, lastResp := 0#3 }

/-- The outcome with every state it holds mapped. -/
def mapOutcome (f : State → State) : Result → Result
  | .next t => .next (f t)
  | .fault r => .fault r
  | .refused r => .refused r

end Sys2Proof.Machine
end

