-- ==== Sys2Proof/Certificates/Slice0/Obligations.lean ====
section
/-! DEFINITION. The statements about the block, for the provers. Each docstring names the rules of spec/ its statement rests
on; where a clause is the model's own choice it names the log entry. The statements over `exec` give the whole next state,
so each is a result and a frame at once: what the right side does not list is unchanged. The block owns no memory
(20_memory.md R50), so there is no byte of memory to speak of. -/

open Sys2Proof Sys2Proof.Machine

/-! ## The request word -/

/-- 30_encoding.md R75: no operand is lost between a request and its word. -/
def Obligations.DecodeOfEncodeIsTheInstruction : Prop :=
  ∀ i : Instr, i.wellFormed = true → decode (encode i) = .ok i

/-- 30_encoding.md R75: each legal word stands for one request, and that request's word is the word. -/
def Obligations.EncodeOfDecodeIsTheWord : Prop :=
  ∀ (w : ReqWord) (i : Instr), decode w = .ok i → i.wellFormed = true ∧ encode i = w

/-- spec/opcode_table.json: the decoder accepts a word exactly when some row's match and mask do. -/
def Obligations.DecodeAcceptsExactlyTheTableRows : Prop :=
  ∀ w : ReqWord, (∃ i, decode w = .ok i) ↔ ∃ r ∈ opcodeTable, r.matches w = true

/-- 30_encoding.md R82: the decoder refuses a word exactly when one of the five items holds. -/
def Obligations.DecodeRefusesExactlyIllegalWords : Prop :=
  ∀ w : ReqWord, (∃ e, decode w = .error e) ↔ IllegalWord w

/-- 30_encoding.md R74: the fields of a word, RSV's rule, and the payload length from OPC and A alone. -/
def Obligations.RequestWordFieldsAndPayloadLength : Prop :=
  ∀ rsv b a opc : Byte,
    reqOpc (rsv ++ b ++ a ++ opc) = opc ∧ reqA (rsv ++ b ++ a ++ opc) = a
    ∧ reqB (rsv ++ b ++ a ++ opc) = b ∧ reqRsv (rsv ++ b ++ a ++ opc) = rsv
    ∧ (rsv ≠ 0#8 → decode (rsv ++ b ++ a ++ opc) = .error .rsvNotZero)
    ∧ (opc = 0x0A#8 → payloadLen (rsv ++ b ++ a ++ opc) = a.toNat)
    ∧ (opc = 0x0E#8 → payloadLen (rsv ++ b ++ a ++ opc) = 8)
    ∧ (opc ≠ 0x0A#8 → opc ≠ 0x0E#8 → payloadLen (rsv ++ b ++ a ++ opc) = 0)

/-- Words written out from 30_encoding.md R75 and 95_test_vectors.md decode to their requests. -/
def Obligations.SampleWordsDecode : Prop :=
  decode 0x00000001#32 = .ok .openBus ∧ decode 0x00000303#32 = .ok (.init 3#8)
  ∧ decode 0x00130408#32 = .ok (.goto 4#8 19#8) ∧ decode 0x0000020A#32 = .ok (.sendString 2#8)
  ∧ decode 0x0002010B#32 = .ok (.moveCursor 1#8 2#8) ∧ decode 0x0000030D#32 = .ok (.changeEntryMode 3#8)
  ∧ decode 0x0000070E#32 = .ok (.createCustomChar 7#8) ∧ decode 0x00000010#32 = .ok (.backlightSet 0#8)
  ∧ decode 0x0000FF14#32 = .ok (.sendCmd 0xFF#8)

/-! ## The step -/

/-- An idle block with a request offered runs the request its word stands for; beside the meaning the step only takes the
word off the request port (30_encoding.md R71; 10_state.md R37). -/
def Obligations.StepRunsTheDecodedRequest : Prop :=
  ∀ (s : State) (w : ReqWord) (ws : List ReqWord) (i : Instr),
    s.busy = false → s.requests = w :: ws → decode w = .ok i → step s = exec i { s with requests := ws }

/-- An idle block with nothing offered stays as it is (70_reset_and_hazards.md R240; log 10), and the word placed by
withFetchWord is the next request to run (log 11). -/
def Obligations.IdleStepWaitsAndAPlacedWordIsRunNext : Prop :=
  (∀ s : State, s.busy = false → s.requests = [] → step s = .next s)
  ∧ ∀ (s : State) (nbits w : Nat) (i : Instr), decode (BitVec.ofNat 32 (w % 2 ^ nbits)) = .ok i →
    step (s.withFetchWord nbits w) = exec i { s with
      busy := false
      payload := List.replicate (payloadLen (BitVec.ofNat 32 (w % 2 ^ nbits))) 0#8 ++ s.payload }

/-- 30_encoding.md R71: req_ready = ¬BUSY, and while BUSY = 1 no request is accepted (the model's `exec` then changes
nothing: log 15). -/
def Obligations.BusyBlockAcceptsNoRequest : Prop :=
  ∀ (i : Instr) (s : State), s.busy = true → reqReady s = false ∧ exec i s = .next s

/-- 10_state.md R31: the transient state is never read before the next acceptance has written it. -/
def Obligations.AcceptanceReadsNoTransientState : Prop :=
  ∀ (i : Instr) (s : State) (q : Seq), s.busy = false → exec i { s with seq := q } = exec i s

/-- 70_reset_and_hazards.md R258: a request in progress is stuck exactly while the input it waits for is missing, and no
other state is. -/
def Obligations.StuckExactlyWithoutTheAwaitedInput : Prop :=
  ∀ s : State,
    (step s = .fault .payloadMissing ↔
      s.busy = true ∧ (s.seq.phase = .payloadSend ∨ s.seq.phase = .payloadDrop) ∧ s.payload = [])
    ∧ (step s = .fault .claimUnanswered ↔ s.busy = true ∧ s.seq.phase = .claiming ∧ s.claims = [])
    ∧ (step s = .fault .attemptUnanswered ↔
      s.busy = true ∧ (∃ f n, s.seq.phase = .attempt f n) ∧ s.statuses = [])
    ∧ (step s = .fault .tickStopped ↔
      s.busy = true ∧ s.ticks = 0
        ∧ ∃ left, left ≠ 0 ∧ (s.seq.phase = .waiting left ∨ ∃ f n, s.seq.phase = .retryWait f n left))
    ∧ ∀ r, step s ≠ .refused r

/-- 00_scope.md R10, 10_state.md R37, 70_reset_and_hazards.md R258: the draws are consumed in order, so a request that had to
wait for a status, a payload byte, an answer to its claim or ms_tick pulses ends as if the input had been there from the start:
for every request, and for every step, whether it accepts a request or goes on with one. -/
def Obligations.AnswersMayArriveLate : Prop :=
  (∀ (i : Instr) (s t : State), s.busy = false → exec i s = .next t → t.busy = true → TakesLateInputs (exec i) s t)
  ∧ ∀ s t : State, step s = .next t → t.busy = true → TakesLateInputs step s t

/-! ## Reset and the status port -/

/-- 10_state.md R36: the value of every register at reset, for every configuration and instance; the transient state, whatever
it is, is not read. -/
def Obligations.ResetTakesTheSpecValues : Prop :=
  ∀ (c : Cfg) (p : Params),
    (State.resetWith c p).cfg = c
    ∧ (c.blInit = true → (State.resetWith c p).blMask = 0x0F#8)
    ∧ (c.blInit = false → (State.resetWith c p).blMask = 0x07#8)
    ∧ (State.resetWith c p).busOpen = false ∧ (State.resetWith c p).initState = .uninitialized
    ∧ (State.resetWith c p).errcnt = 0#32
    ∧ (State.resetWith c p).fBusUnavailable = false ∧ (State.resetWith c p).fIllegalRequest = false
    ∧ (State.resetWith c p).fBusNotOpen = false ∧ (State.resetWith c p).fNotReadyUse = false
    ∧ (State.resetWith c p).fFrameDropped = false
    ∧ (State.resetWith c p).wInvalidGeometry = false ∧ (State.resetWith c p).wInvalidSlot = false
    ∧ (State.resetWith c p).cursorType = 0#2 ∧ (State.resetWith c p).ctValid = false
    ∧ (State.resetWith c p).entryMode = 0#2 ∧ (State.resetWith c p).emValid = false
    ∧ (State.resetWith c p).lastResp = 0#3 ∧ (State.resetWith c p).busy = false
    ∧ ∀ (i : Instr) (q : Seq), exec i { State.resetWith c p with seq := q } = exec i (State.resetWith c p)

/-- 70_reset_and_hazards.md R240, R241: reset in any state abandons the request in progress, emits no event, gives every
register its reset value and leaves the request port ready. That the inputs offered and not taken stay is the model's choice,
log 13; so is the idle transient state that State.resetWith holds, log 12. -/
def Obligations.ResetAbandonsTheRequestSilently : Prop :=
  ∀ (c : Cfg) (s : State),
    (applyReset c s).trace = s.trace ∧ reqReady (applyReset c s) = true ∧ (applyReset c s).busOpen = false
    ∧ ((applyReset c s).requests = s.requests ∧ (applyReset c s).payload = s.payload
      ∧ (applyReset c s).statuses = s.statuses ∧ (applyReset c s).claims = s.claims ∧ (applyReset c s).ticks = s.ticks)
    ∧ { applyReset c s with trace := [], requests := [], payload := [], statuses := [], claims := [], ticks := 0 }
        = State.resetWith c s.par

/-- 10_state.md R35, with the encoding of INIT_STATE from R24: every field of the status port. -/
def Obligations.StatusPortReadsTheRegisters : Prop :=
  ∀ s : State,
    (initCode .uninitialized = 0#2 ∧ initCode .nibbleModeNegotiated = 1#2 ∧ initCode .configured = 2#2
      ∧ initCode .ready = 3#2)
    ∧ (statusRead 0#3 s).extractLsb' 0 2 = initCode s.initState
    ∧ (statusRead 0#3 s).getLsbD 2 = s.busOpen ∧ (statusRead 0#3 s).getLsbD 3 = s.busy
    ∧ ((statusRead 0#3 s).getLsbD 4 = true ↔ s.blMask = 0x0F#8)
    ∧ (statusRead 0#3 s).getLsbD 5 = s.fBusUnavailable ∧ (statusRead 0#3 s).getLsbD 6 = s.fIllegalRequest
    ∧ (statusRead 0#3 s).getLsbD 7 = s.fBusNotOpen ∧ (statusRead 0#3 s).getLsbD 8 = s.fNotReadyUse
    ∧ (statusRead 0#3 s).getLsbD 9 = s.fFrameDropped ∧ (statusRead 0#3 s).getLsbD 10 = s.wInvalidGeometry
    ∧ (statusRead 0#3 s).getLsbD 11 = s.wInvalidSlot
    ∧ (statusRead 0#3 s).extractLsb' 12 2 = s.cursorType ∧ (statusRead 0#3 s).getLsbD 14 = s.ctValid
    ∧ (statusRead 0#3 s).extractLsb' 15 2 = s.entryMode ∧ (statusRead 0#3 s).getLsbD 17 = s.emValid
    ∧ (statusRead 0#3 s).extractLsb' 18 3 = s.lastResp ∧ (statusRead 0#3 s).extractLsb' 21 11 = 0#11
    ∧ statusRead 1#3 s = s.errcnt
    ∧ (statusRead 2#3 s).extractLsb' 0 3 = s.cfg.rows ∧ (statusRead 2#3 s).extractLsb' 3 5 = 0#5
    ∧ (statusRead 2#3 s).extractLsb' 8 8 = s.cfg.cols ∧ (statusRead 2#3 s).extractLsb' 16 16 = 0#16
    ∧ (statusRead 3#3 s).extractLsb' 0 7 = s.cfg.addr ∧ (statusRead 3#3 s).extractLsb' 7 9 = 0#9
    ∧ (statusRead 3#3 s).extractLsb' 16 16 = s.cfg.speed
    ∧ (statusRead 4#3 s).extractLsb' 0 16 = s.cfg.retryLimit
    ∧ (statusRead 4#3 s).extractLsb' 16 16 = s.cfg.retryDelayMs
    ∧ (statusRead 5#3 s).getLsbD 0 = s.cfg.debug ∧ (statusRead 5#3 s).getLsbD 1 = s.cfg.blInit
    ∧ (statusRead 5#3 s).extractLsb' 2 30 = 0#30
    ∧ (statusRead 6#3 s).extractLsb' 0 8 = s.blMask ∧ (statusRead 6#3 s).extractLsb' 8 24 = 0#24
    ∧ statusRead 7#3 s = 0#32

/-! ## The encoder and the addresses -/

/-- 41_encoder.md R124: the properties of every frame, and that the encoder is injective with the inverse given. -/
def Obligations.EncodedFrameHasItsShapeAndInverse : Prop :=
  (∀ (b : Byte) (rs : Bool) (bm : Byte), bm = 0x0F#8 ∨ bm = 0x07#8 →
    (encodeByte b rs bm).b0.extractLsb' 4 4 = b.extractLsb' 4 4
    ∧ (encodeByte b rs bm).b1.extractLsb' 4 4 = b.extractLsb' 4 4
    ∧ (encodeByte b rs bm).b2.extractLsb' 4 4 = b.extractLsb' 0 4
    ∧ (encodeByte b rs bm).b3.extractLsb' 4 4 = b.extractLsb' 0 4
    ∧ (encodeByte b rs bm).b0.getLsbD 2 = true ∧ (encodeByte b rs bm).b2.getLsbD 2 = true
    ∧ (encodeByte b rs bm).b1.getLsbD 2 = false ∧ (encodeByte b rs bm).b3.getLsbD 2 = false
    ∧ (∀ x ∈ frameBytes (encodeByte b rs bm),
        x.getLsbD 0 = rs ∧ x.getLsbD 1 = false ∧ x.getLsbD 3 = bm.getLsbD 3)
    ∧ decodeFrame (encodeByte b rs bm) = (b, rs, bm.getLsbD 3))
  ∧ ∀ (b b' : Byte) (rs rs' : Bool) (bm bm' : Byte), bm = 0x0F#8 ∨ bm = 0x07#8 → bm' = 0x0F#8 ∨ bm' = 0x07#8 →
      encodeByte b rs bm = encodeByte b' rs' bm' → b = b' ∧ rs = rs' ∧ bm.getLsbD 3 = bm'.getLsbD 3

/-- 41_encoder.md R128, 20_memory.md R52: on the LCD's pins a frame latches exactly two nibbles, the upper one first, both with
the frame's register select. -/
def Obligations.FrameLatchesUpperNibbleThenLower : Prop :=
  ∀ (b : Byte) (rs : Bool) (bm : Byte), bm = 0x0F#8 ∨ bm = 0x07#8 →
    latchedNibbles (frameBytes (encodeByte b rs bm)) = [(rs, b.extractLsb' 4 4), (rs, b.extractLsb' 0 4)]

/-- 20_memory.md R53: RowAddr in its six cases, and undefined exactly on rows that are not addressable. -/
def Obligations.RowAddressOfEveryRowAndWidth : Prop :=
  ∀ cols row col : Byte,
    (row = 1#8 → rowAddr? cols row col = some (0x80#8 ||| col))
    ∧ (row = 2#8 → rowAddr? cols row col = some (0xC0#8 ||| col))
    ∧ (row = 3#8 → cols = 20#8 → rowAddr? cols row col = some (0x94#8 + col))
    ∧ (row = 3#8 → cols = 16#8 → rowAddr? cols row col = some (0x90#8 ||| col))
    ∧ (row = 4#8 → cols = 20#8 → rowAddr? cols row col = some (0xD4#8 + col))
    ∧ (row = 4#8 → cols = 16#8 → rowAddr? cols row col = some (0xD0#8 ||| col))
    ∧ (rowAddr? cols row col = none ↔ ¬ RowReachable cols row)
    ∧ (rowAddressable cols row = true ↔ RowReachable cols row)

/-! ## Transport and waiting -/

/-- 40_transport.md R100: OPEN's word, its claim with either answer, and OPEN while open. The transient state it leaves is any
(10_state.md R31). -/
def Obligations.OpenClaimsTheBus : Prop :=
  encode .openBus = 0x00000001#32
  ∧ ∀ s : State, s.busy = false →
    (s.busOpen = true → ∃ q, exec .openBus s = .next
      { s with fIllegalRequest := true, lastResp := 1#3, seq := q,
               trace := s.trace ++ logEvents s.cfg.debug .illegalRequest 0x0001#16 ++ [.resp 1#3] })
    ∧ (∀ rest, s.busOpen = false → s.claims = true :: rest → ∃ q, exec .openBus s = .next
      { s with claims := rest, busOpen := true, lastResp := 0#3, seq := q,
               trace := s.trace ++ [.claim s.cfg.addr s.cfg.speed true, .resp 0#3] })
    ∧ (∀ rest, s.busOpen = false → s.claims = false :: rest → ∃ q, exec .openBus s = .next
      { s with claims := rest, fBusUnavailable := true, lastResp := 3#3, seq := q,
               trace := s.trace ++ [.claim s.cfg.addr s.cfg.speed false]
                 ++ logEvents s.cfg.debug .busUnavailable (s.cfg.addr.setWidth 16) ++ [.resp 3#3] })

/-- 40_transport.md R102: CLOSE's word; it releases an open bus, and only answers on a closed one. The transient state it
leaves is any (10_state.md R31). -/
def Obligations.CloseReleasesTheBus : Prop :=
  encode .close = 0x00000002#32
  ∧ ∀ s : State, s.busy = false →
    (s.busOpen = true → ∃ q, exec .close s = .next
      { s with busOpen := false, lastResp := 0#3, seq := q, trace := s.trace ++ [.release, .resp 0#3] })
    ∧ (s.busOpen = false → ∃ q, exec .close s = .next
      { s with lastResp := 0#3, seq := q, trace := s.trace ++ [.resp 0#3] })

/-- 40_transport.md R105: SendFrame retries the frame until an attempt succeeds; when CFG.RETRY_LIMIT retries are spent it
drops the frame and returns. -/
def Obligations.SendFrameRetriesThenSucceedsOrDrops : Prop :=
  ∀ (f : Frame) (s : State) (fails rest : List Byte),
    (∀ st ∈ fails, st ≠ 0#8) → fails.length * waitTicks s.cfg.retryDelayMs ≤ s.ticks →
    (s.statuses = fails ++ 0#8 :: rest → s.cfg.retryLimit = 0#16 ∨ fails.length ≤ s.cfg.retryLimit.toNat →
      sendFrame f s = .done { s with
        trace := s.trace ++ retryEvents s.cfg f 0 fails ++ [.frame s.cfg.addr f 0#8]
        statuses := rest, ticks := s.ticks - fails.length * waitTicks s.cfg.retryDelayMs
        errcnt := satAdd32 s.errcnt fails.length })
    ∧ (∀ st, s.statuses = fails ++ st :: rest → st ≠ 0#8 → s.cfg.retryLimit ≠ 0#16 →
        fails.length = s.cfg.retryLimit.toNat →
      sendFrame f s = .done { s with
        trace := s.trace ++ retryEvents s.cfg f 0 fails ++ [.frame s.cfg.addr f st]
          ++ logEvents s.cfg.debug .frameDropped (st.setWidth 16)
        statuses := rest, ticks := s.ticks - fails.length * waitTicks s.cfg.retryDelayMs
        errcnt := satAdd32 s.errcnt (fails.length + 1)
        fFrameDropped := true, seq := { s.seq with dropped := true } })

/-- 40_transport.md R108, 60_exceptions.md R204: a request answers FRAME_DROPPED exactly when one of its frames was
dropped, and goes on after the drop. Whatever statuses the bus master answers, a request on an open bus that passes its
checks makes at least as many attempts as its row has frames, and every Wait of its row; with CFG.DEBUG = 1, where the trace
shows the drops, it ends (delivers or drops) exactly as many frames as its row has, so that none is skipped after a drop
(a run with CFG.DEBUG = 0 is the same run without the LOG events: DebugFlagOnlyAddsLogEvents). INIT ends Ready with its types
recorded (42_init.md R143), RESET_SCREEN and CHANGE_ENTRY_MODE record theirs (42_init.md R144, 43_display_ops.md R169), and
SHUTDOWN ends with the bus released (42_init.md R145). The last clause gives the whole trace of a SEND_STRING whose first
frame is dropped and whose others are delivered; the idle transient state it leaves is log 12. -/
def Obligations.DroppedFrameLetsTheRequestGoOn : Prop :=
  (∀ (i : Instr) (s t : State), s.busy = false → s.fFrameDropped = false → exec i s = .next t → t.busy = false →
    (t.lastResp = 6#3 ↔ t.fFrameDropped = true))
  ∧ (∀ (i : Instr) (s t : State), s.busy = false → s.busOpen = true → i.wellFormed = true → PassesRange i s.cfg →
    exec i s = .next t → t.busy = false →
    ∃ evs, t.trace = s.trace ++ evs ∧ frameCount s.cfg i ≤ evs.countP isAttempt
      ∧ (s.cfg.debug = true → evs.countP endsFrame = frameCount s.cfg i)
      ∧ ((waitsOf s.par i).filter fun d => d ≠ 0#16).Sublist (evs.filterMap delayOf?))
  ∧ (∀ (ct : Byte) (s t : State), s.busy = false → s.busOpen = true → ct.toNat < 4 →
    exec (.init ct) s = .next t → t.busy = false →
    t.initState = .ready ∧ t.cursorType = BitVec.ofNat 2 ct.toNat ∧ t.ctValid = true
      ∧ t.entryMode = 2#2 ∧ t.emValid = true ∧ t.busOpen = true ∧ (t.lastResp = 0#3 ∨ t.lastResp = 6#3))
  ∧ (∀ (ct : Byte) (s t : State), s.busy = false → s.busOpen = true → ct.toNat < 4 →
    exec (.resetScreen ct) s = .next t → t.busy = false →
    t.initState = s.initState ∧ t.cursorType = BitVec.ofNat 2 ct.toNat ∧ t.ctValid = true
      ∧ t.entryMode = 2#2 ∧ t.emValid = true ∧ t.busOpen = true ∧ (t.lastResp = 0#3 ∨ t.lastResp = 6#3))
  ∧ (∀ (mode : Byte) (s t : State), s.busy = false → s.busOpen = true → mode.toNat < 4 →
    exec (.changeEntryMode mode) s = .next t → t.busy = false →
    t.entryMode = BitVec.ofNat 2 mode.toNat ∧ t.emValid = true ∧ t.busOpen = true
      ∧ (t.lastResp = 0#3 ∨ t.lastResp = 6#3))
  ∧ (∀ s t : State, s.busy = false → s.busOpen = true → exec .shutdown s = .next t → t.busy = false →
    t.busOpen = false ∧ t.initState = .uninitialized ∧ (t.lastResp = 0#3 ∨ t.lastResp = 6#3)
      ∧ ∃ evs, t.trace = s.trace ++ evs ++ [.release, .resp t.lastResp])
  ∧ ∀ (n st b : Byte) (s : State) (text fails rest : List Byte),
    s.busy = false → s.busOpen = true → s.initState = .ready → n.toNat = 1 + text.length → s.payload = b :: text →
    s.cfg.retryLimit ≠ 0#16 → fails.length = s.cfg.retryLimit.toNat → (∀ x ∈ fails, x ≠ 0#8) → st ≠ 0#8 →
    s.statuses = fails ++ st :: (List.replicate text.length 0#8 ++ rest) →
    fails.length * waitTicks s.cfg.retryDelayMs ≤ s.ticks →
    exec (.sendString n) s = .next { s with
      trace := s.trace ++ retryEvents s.cfg (encodeByte b true s.blMask) 0 fails
        ++ [.frame s.cfg.addr (encodeByte b true s.blMask) st]
        ++ logEvents s.cfg.debug .frameDropped (st.setWidth 16) ++ text.map (dataSent s) ++ [.resp 6#3]
      payload := [], statuses := rest, ticks := s.ticks - fails.length * waitTicks s.cfg.retryDelayMs
      errcnt := satAdd32 s.errcnt (fails.length + 1), fFrameDropped := true, lastResp := 6#3, seq := Seq.idle }

/-- 40_transport.md R105, R106: with a limit, a frame has at most 1 + CFG.RETRY_LIMIT attempts, each with the same four bytes,
whatever the bus master answers. -/
def Obligations.FrameHasAtMostOnePlusLimitAttempts : Prop :=
  ∀ (f : Frame) (s t : State), s.cfg.retryLimit ≠ 0#16 → sendFrame f s = .done t ∨ sendFrame f s = .blocked t →
    ∃ evs, t.trace = s.trace ++ evs ∧ evs.countP isAttempt ≤ 1 + s.cfg.retryLimit.toNat
      ∧ ∀ e ∈ evs, isAttempt e = true → ∃ st, e = .frame s.cfg.addr f st

/-- 40_transport.md R107: with CFG.RETRY_LIMIT = 0, for every infinite sequence of nonzero statuses there is an infinite run of
attempts of the frame, each followed by its retry delay, with BUSY = 1 and no RESP. -/
def Obligations.UnboundedRetryNeverCompletes : Prop :=
  ∀ (s : State) (f : Frame) (n : Half) (draw : Nat → Byte),
    s.busy = true → s.seq.phase = .attempt f n → s.statuses = [] → s.cfg.retryLimit = 0#16 → (∀ k, draw k ≠ 0#8) →
    ∃ states : Nat → State, states 0 = s ∧ ∀ k,
      (states k).busy = true ∧ (states k).lastResp = s.lastResp
      ∧ step (offerTicks (waitTicks s.cfg.retryDelayMs) (offerStatus [draw k] (states k))) = .next (states (k + 1))
      ∧ (states (k + 1)).trace = (states k).trace ++ retryEvents s.cfg f (n.toNat + k) [draw k]

/-- 70_reset_and_hazards.md R250: Wait(d) does nothing for d = 0; else it emits DELAY(d) and counts d + 1 pulses, resuming its
count where fewer arrive. -/
def Obligations.WaitCountsOnePulseMoreThanItsMilliseconds : Prop :=
  ∀ (d : Half) (s : State),
    (d = 0#16 → runPrim (.wait d) s = .done s)
    ∧ (d ≠ 0#16 → d.toNat + 1 ≤ s.ticks → runPrim (.wait d) s = .done
        { s with trace := s.trace ++ [.delay d], ticks := s.ticks - (d.toNat + 1) })
    ∧ (d ≠ 0#16 → s.ticks < d.toNat + 1 → runPrim (.wait d) s = .blocked
        { s with trace := s.trace ++ [.delay d], ticks := 0,
                 seq := { s.seq with phase := .waiting (d.toNat + 1 - s.ticks) } })

/-! ## Results of the requests, with their frames -/

/-- 41_encoder.md R125: SEND_CMD sends one command frame, after any retries. The idle transient state it leaves is log 12. -/
def Obligations.SendCmdSendsOneCommandFrame : Prop :=
  ∀ (c : Byte) (s : State) (fails rest : List Byte), ServedAfter s fails rest 0 →
    exec (.sendCmd c) s = .next (afterRetries s (encodeByte c false s.blMask) fails rest [] 0)

/-- 41_encoder.md R126: SEND_CHAR sends one data frame, after any retries. The idle transient state it leaves is log 12. -/
def Obligations.SendCharSendsOneDataFrame : Prop :=
  ∀ (ch : Byte) (s : State) (fails rest : List Byte), ServedAfter s fails rest 0 →
    exec (.sendChar ch) s = .next (afterRetries s (encodeByte ch true s.blMask) fails rest [] 0)

/-- 41_encoder.md R127: SEND_STRING sends its payload bytes as data, in order, and consumes them. The idle transient state
it leaves is log 12. -/
def Obligations.SendStringSendsItsPayloadInOrder : Prop :=
  ∀ (n : Byte) (s : State) (text more rest : List Byte),
    1 ≤ n.toNat → s.payload = text ++ more → text.length = n.toNat → Served s n.toNat rest 0 →
    exec (.sendString n) s = .next { afterOk s (text.map (dataSent s)) rest 0 with payload := more }

/-- 41_encoder.md R127, 43_display_ops.md R166, R167, 60_exceptions.md R206: with a count of 0, SEND_STRING, MOVE_CURSOR
and SCROLL send nothing and are OK, whether the bus is open or not. The idle transient state it leaves is log 12. -/
def Obligations.EmptyLoopsSendNothingAndAreOk : Prop :=
  ∀ (i : Instr) (s : State), s.busy = false →
    (i = .sendString 0#8 ∨ ∃ dir : Byte, dir.toNat < 2 ∧ (i = .moveCursor dir 0#8 ∨ i = .scroll dir 0#8)) →
    exec i s = .next { s with lastResp := 0#3, seq := Seq.idle, trace := s.trace ++ [.resp 0#3] }

/-- 42_init.md R140 to R142: INIT runs the seven steps from any INIT_STATE, ends Ready, and never sets F_NOT_READY_USE. Wherever
INIT waits, INIT_STATE is what R141 gives for the frames not completed; in particular, where the bus master has delivered `k`
frames and not answered the next, and where the last Wait lacks pulses. Which step ends each INIT_STATE is the spec's choice
(R141: "This assignment is the spec's choice"). The idle transient state it leaves is log 12. -/
def Obligations.InitRunsTheSevenSteps : Prop :=
  (∀ (ct : Byte) (s : State) (rest : List Byte), ct.toNat < 4 →
    Served s 8 rest (waitTicks s.par.powerOnMs + 3 * waitTicks s.par.initGapMs + waitTicks s.par.initClearMs) →
    exec (.init ct) s = .next { afterOk s
      (waitEvents s.par.powerOnMs
        ++ [cmdSent s s.par.cmd.home] ++ waitEvents s.par.initGapMs
        ++ [cmdSent s s.par.cmd.home] ++ waitEvents s.par.initGapMs
        ++ [cmdSent s s.par.cmd.home] ++ waitEvents s.par.initGapMs
        ++ [cmdSent s s.par.cmd.functionSet, cmdSent s s.par.cmd.displayOn,
            cmdSent s (cursorByte s.par.cmd ct),
            cmdSent s s.par.cmd.entryInc, cmdSent s s.par.cmd.clear]
        ++ waitEvents s.par.initClearMs)
      rest (waitTicks s.par.powerOnMs + 3 * waitTicks s.par.initGapMs + waitTicks s.par.initClearMs) with
      initState := .ready, cursorType := BitVec.ofNat 2 ct.toNat, ctValid := true, entryMode := 2#2, emValid := true
      fNotReadyUse := s.fNotReadyUse })
  ∧ (∀ (ct : Byte) (s t : State), s.busy = false → exec (.init ct) s = .next t → t.busy = true →
    t.initState = initStateAt (framesLeft t.seq) ∧ t.initState ≠ .ready)
  ∧ (∀ (ct : Byte) (s : State) (k : Nat), ct.toNat < 4 → k < 8 →
    Served s k [] (waitTicks s.par.powerOnMs + 3 * waitTicks s.par.initGapMs + waitTicks s.par.initClearMs) →
    ∃ t evs f n, exec (.init ct) s = .next t ∧ t.busy = true ∧ t.seq.phase = .attempt f n
      ∧ t.trace = s.trace ++ evs ∧ evs.countP isAttempt = k
      ∧ t.initState = if k < 4 then .uninitialized else if k < 7 then .nibbleModeNegotiated else .configured)
  ∧ ∀ (ct : Byte) (s : State) (rest : List Byte), ct.toNat < 4 →
    Served s 8 rest (waitTicks s.par.powerOnMs + 3 * waitTicks s.par.initGapMs) →
    s.ticks < waitTicks s.par.powerOnMs + 3 * waitTicks s.par.initGapMs + waitTicks s.par.initClearMs →
    ∃ t left, exec (.init ct) s = .next t ∧ t.busy = true ∧ t.seq.phase = .waiting left ∧ t.initState = .configured

/-- 42_init.md R144: RESET_SCREEN sends its five commands in the source's order, with the settle wait after the clear. The
idle transient state it leaves is log 12. -/
def Obligations.ResetScreenResendsTheConfiguration : Prop :=
  ∀ (ct : Byte) (s : State) (rest : List Byte), ct.toNat < 4 → Served s 5 rest (waitTicks s.par.clearSettleMs) →
    exec (.resetScreen ct) s = .next { afterOk s
      ([cmdSent s s.par.cmd.functionSet, cmdSent s s.par.cmd.displayOn,
        cmdSent s (cursorByte s.par.cmd ct),
        cmdSent s s.par.cmd.clear] ++ waitEvents s.par.clearSettleMs ++ [cmdSent s s.par.cmd.entryInc])
      rest (waitTicks s.par.clearSettleMs) with
      cursorType := BitVec.ofNat 2 ct.toNat, ctValid := true, entryMode := 2#2, emValid := true }

/-- 42_init.md R145: SHUTDOWN turns the display off, waits, releases the bus and forgets the initialisation. The idle
transient state it leaves is log 12. -/
def Obligations.ShutdownTurnsOffAndReleases : Prop :=
  ∀ (s : State) (fails rest : List Byte), ServedAfter s fails rest (waitTicks s.par.displayMs) →
    exec .shutdown s = .next { afterRetries s (encodeByte s.par.cmd.displayOff false s.blMask) fails rest
        (waitEvents s.par.displayMs ++ [.release]) (waitTicks s.par.displayMs) with
      busOpen := false, initState := .uninitialized }

/-- 43_display_ops.md R160: CLEAR_SCREEN positions at the start of every configured row, in the instance's order, and
writes a space to every column. The idle transient state it leaves is log 12. -/
def Obligations.ClearScreenWritesSpacesToEveryRow : Prop :=
  ∀ (s : State) (rest : List Byte), GeometryValid s.cfg →
    Served s (s.cfg.rows.toNat * (1 + s.cfg.cols.toNat)) rest 0 →
    exec .clearScreen s = .next (afterOk s
      ((rowsCleared s.par.rowOrder s.cfg.rows.toNat).flatMap fun r =>
        cmdSent s (rowStart s.cfg.cols r) :: List.replicate s.cfg.cols.toNat (dataSent s 0x20#8))
      rest 0)

/-- 43_display_ops.md R161: CLEAR_LINE sends one addressing frame and then exactly CFG.COLS spaces. The idle transient
state it leaves is log 12. -/
def Obligations.ClearLineWritesSpacesToItsRow : Prop :=
  ∀ (row : Byte) (s : State) (rest : List Byte), RowReachable s.cfg.cols row →
    Served s (1 + s.cfg.cols.toNat) rest 0 →
    exec (.clearLine row) s = .next (afterOk s
      (cmdSent s (rowStart s.cfg.cols row) :: List.replicate s.cfg.cols.toNat (dataSent s 0x20#8)) rest 0)

/-- 43_display_ops.md R162, R163: CLEAR_SCREEN_CMD and HOME send their command and wait for it to settle. The idle
transient state it leaves is log 12. -/
def Obligations.ClearScreenCmdAndHomeSendAndSettle : Prop :=
  ∀ (s : State) (fails rest : List Byte),
    (ServedAfter s fails rest (waitTicks s.par.clearSettleMs) → exec .clearScreenCmd s = .next
      (afterRetries s (encodeByte s.par.cmd.clear false s.blMask) fails rest (waitEvents s.par.clearSettleMs)
        (waitTicks s.par.clearSettleMs)))
    ∧ (ServedAfter s fails rest (waitTicks s.par.homeSettleMs) → exec .home s = .next
      (afterRetries s (encodeByte s.par.cmd.home false s.blMask) fails rest (waitEvents s.par.homeSettleMs)
        (waitTicks s.par.homeSettleMs)))

/-- 43_display_ops.md R164, R165, 20_memory.md R53: GOTO sends the row's base OR'd with the column, or the sum modulo 256
on rows 3 and 4 of 20 columns; the column is not checked. The idle transient state it leaves is log 12. -/
def Obligations.GotoSendsTheRowAddress : Prop :=
  ∀ (row col : Byte) (s : State) (fails rest : List Byte), ServedAfter s fails rest 0 →
    (row = 1#8 → exec (.goto row col) s = .next
      (afterRetries s (encodeByte (0x80#8 ||| col) false s.blMask) fails rest [] 0))
    ∧ (row = 2#8 → exec (.goto row col) s = .next
      (afterRetries s (encodeByte (0xC0#8 ||| col) false s.blMask) fails rest [] 0))
    ∧ (row = 3#8 → s.cfg.cols = 20#8 → exec (.goto row col) s = .next
      (afterRetries s (encodeByte (0x94#8 + col) false s.blMask) fails rest [] 0))
    ∧ (row = 3#8 → s.cfg.cols = 16#8 → exec (.goto row col) s = .next
      (afterRetries s (encodeByte (0x90#8 ||| col) false s.blMask) fails rest [] 0))
    ∧ (row = 4#8 → s.cfg.cols = 20#8 → exec (.goto row col) s = .next
      (afterRetries s (encodeByte (0xD4#8 + col) false s.blMask) fails rest [] 0))
    ∧ (row = 4#8 → s.cfg.cols = 16#8 → exec (.goto row col) s = .next
      (afterRetries s (encodeByte (0xD0#8 ||| col) false s.blMask) fails rest [] 0))

/-- 43_display_ops.md R166, R167: MOVE_CURSOR and SCROLL send their one-step command `count` times, with no Wait. The idle
transient state it leaves is log 12. -/
def Obligations.MoveCursorAndScrollRepeatTheirStep : Prop :=
  ∀ (count : Byte) (s : State) (rest : List Byte), 1 ≤ count.toNat → Served s count.toNat rest 0 →
    exec (.moveCursor 0#8 count) s = .next
      (afterOk s (List.replicate count.toNat (cmdSent s s.par.cmd.cursorLeft)) rest 0)
    ∧ exec (.moveCursor 1#8 count) s = .next
      (afterOk s (List.replicate count.toNat (cmdSent s s.par.cmd.cursorRight)) rest 0)
    ∧ exec (.scroll 0#8 count) s = .next
      (afterOk s (List.replicate count.toNat (cmdSent s s.par.cmd.scrollLeft)) rest 0)
    ∧ exec (.scroll 1#8 count) s = .next
      (afterOk s (List.replicate count.toNat (cmdSent s s.par.cmd.scrollRight)) rest 0)

/-- 43_display_ops.md R169: CHANGE_ENTRY_MODE sends the mode's command and records the mode. The idle transient state it
leaves is log 12. -/
def Obligations.ChangeEntryModeSendsAndRecordsTheMode : Prop :=
  ∀ (mode : Byte) (s : State) (fails rest : List Byte), mode.toNat < 4 → ServedAfter s fails rest 0 →
    exec (.changeEntryMode mode) s = .next { afterRetries s
        (encodeByte (entryByte s.par.cmd mode) false s.blMask) fails rest [] 0 with
      entryMode := BitVec.ofNat 2 mode.toNat, emValid := true }

/-- 43_display_ops.md R170, R171, 20_memory.md R54: CREATE_CUSTOM_CHAR sends the slot's CGRAM address and the eight glyph
bytes, unmasked. The idle transient state it leaves is log 12. -/
def Obligations.CreateCustomCharSendsAddressAndGlyph : Prop :=
  ∀ (slot : Byte) (s : State) (glyph more rest : List Byte),
    slot.toNat < 8 → s.payload = glyph ++ more → glyph.length = 8 → Served s 9 rest 0 →
    exec (.createCustomChar slot) s = .next { afterOk s
        (cmdSent s (BitVec.ofNat 8 (0x40 + 8 * slot.toNat)) :: glyph.map (dataSent s)) rest 0 with payload := more }

/-- 43_display_ops.md R172: PRINT_CUSTOM_CHAR sends the slot number as a data byte. The idle transient state it leaves is
log 12. -/
def Obligations.PrintCustomCharSendsTheSlot : Prop :=
  ∀ (slot : Byte) (s : State) (fails rest : List Byte), slot.toNat < 8 → ServedAfter s fails rest 0 →
    exec (.printCustomChar slot) s = .next (afterRetries s (encodeByte slot true s.blMask) fails rest [] 0)

/-- 43_display_ops.md R173: BACKLIGHT_SET's words; it stores the mask and sends nothing, with no bus check. The idle
transient state it leaves is log 12. -/
def Obligations.BacklightSetStoresTheMask : Prop :=
  encode (.backlightSet 0#8) = 0x00000010#32 ∧ encode (.backlightSet 1#8) = 0x00000110#32
  ∧ ∀ s : State, s.busy = false →
    exec (.backlightSet 1#8) s = .next
      { s with blMask := 0x0F#8, lastResp := 0#3, seq := Seq.idle, trace := s.trace ++ [.resp 0#3] }
    ∧ exec (.backlightSet 0#8) s = .next
      { s with blMask := 0x07#8, lastResp := 0#3, seq := Seq.idle, trace := s.trace ++ [.resp 0#3] }
    ∧ ∀ on : Byte, 2 ≤ on.toNat → exec (.backlightSet on) s = .next
      { afterRaise s (logEvents s.cfg.debug .illegalRequest (on ++ 0x10#8)) 1#3 0 with fIllegalRequest := true }

/-- 43_display_ops.md R174: DISPLAY_ON sends the display command and waits; no register records it. The idle transient
state it leaves is log 12. -/
def Obligations.DisplayOnSendsAndWaits : Prop :=
  ∀ (on : Byte) (s : State) (fails rest : List Byte), on.toNat < 2 → ServedAfter s fails rest (waitTicks s.par.displayMs) →
    exec (.displayOn on) s = .next (afterRetries s
      (encodeByte (if on = 1#8 then s.par.cmd.displayOn else s.par.cmd.displayOff) false s.blMask) fails rest
      (waitEvents s.par.displayMs) (waitTicks s.par.displayMs))

/-! ## Checks and errors -/

/-- 30_encoding.md R82, 60_exceptions.md R205: an illegal word offered raises IllegalRequest: only its flag, its LOG, its
RESP, and its payload consumed. So does OPEN while the bus is open. The transient state it leaves is any (10_state.md R31). -/
def Obligations.IllegalRequestOnlySetsItsFlagAndAnswers : Prop :=
  (∀ (w : ReqWord) (ws : List ReqWord) (s : State),
    s.busy = false → s.requests = w :: ws → IllegalWord w → payloadLen w ≤ s.payload.length →
    ∃ q, step s = .next { s with
      requests := ws, payload := s.payload.drop (payloadLen w), fIllegalRequest := true, lastResp := 1#3, seq := q
      trace := s.trace ++ logEvents s.cfg.debug .illegalRequest (w.extractLsb' 0 16) ++ [.resp 1#3] })
  ∧ ∀ s : State, s.busy = false → s.busOpen = true → ∃ q, exec .openBus s = .next
      { s with fIllegalRequest := true, lastResp := 1#3, seq := q
               trace := s.trace ++ logEvents s.cfg.debug .illegalRequest 0x0001#16 ++ [.resp 1#3] }

/-- 30_encoding.md R82 items 4 and 5, 60_exceptions.md R202: an enumeration operand out of range ends the request before
every other check. The idle transient state it leaves is log 12. -/
def Obligations.OutOfRangeOperandIsIllegal : Prop :=
  ∀ (i : Instr) (s : State), s.busy = false → i.wellFormed = false →
    exec i s = .next { afterRaise s (logEvents s.cfg.debug .illegalRequest ((encode i).extractLsb' 0 16)) 1#3 0 with
      fIllegalRequest := true }

/-- 43_display_ops.md R160, R161, R164, 60_exceptions.md R202: a row without an address, or a geometry CLEAR_SCREEN does
not accept, ends the request before the bus check, with no frame. The idle transient state it leaves is log 12. -/
def Obligations.InvalidGeometryEndsTheRequest : Prop :=
  ∀ s : State, s.busy = false →
    (∀ row col : Byte, ¬ RowReachable s.cfg.cols row → exec (.goto row col) s = .next
      { afterRaise s (logEvents s.cfg.debug .invalidGeometry (0x08#8 ++ row)) 5#3 0 with wInvalidGeometry := true })
    ∧ (∀ row : Byte, ¬ RowReachable s.cfg.cols row → exec (.clearLine row) s = .next
      { afterRaise s (logEvents s.cfg.debug .invalidGeometry (0x12#8 ++ row)) 5#3 0 with wInvalidGeometry := true })
    ∧ (¬ GeometryValid s.cfg → exec .clearScreen s = .next
      { afterRaise s (logEvents s.cfg.debug .invalidGeometry (0x05#8 ++ s.cfg.rows.setWidth 8)) 5#3 0 with
        wInvalidGeometry := true })

/-- 43_display_ops.md R171, R172: a slot of 8 or more ends the request with no frame and no LOG, before the bus check;
CREATE_CUSTOM_CHAR's eight payload bytes are consumed and discarded. The idle transient state it leaves is log 12. -/
def Obligations.InvalidSlotEndsTheRequestSilently : Prop :=
  ∀ (slot : Byte) (s : State), s.busy = false → 8 ≤ slot.toNat →
    (8 ≤ s.payload.length → exec (.createCustomChar slot) s = .next { afterRaise s [] 4#3 8 with wInvalidSlot := true })
    ∧ exec (.printCustomChar slot) s = .next { afterRaise s [] 4#3 0 with wInvalidSlot := true }

/-- 60_exceptions.md R206: a request that would send a frame while BUS_OPEN = 0 raises BusNotOpen before its first
primitive. That its payload is consumed is log 7. The idle transient state it leaves is log 12. -/
def Obligations.BusNotOpenEndsTheRequestBeforeAnyAction : Prop :=
  ∀ (i : Instr) (s : State), s.busy = false → s.busOpen = false → i.wellFormed = true → PassesRange i s.cfg →
    wouldSendFrame i = true → payloadLen (encode i) ≤ s.payload.length →
    exec i s = .next { afterRaise s (logEvents s.cfg.debug .busNotOpen ((reqOpc (encode i)).setWidth 16)) 2#3
      (payloadLen (encode i)) with fBusNotOpen := true }

/-- 60_exceptions.md R207: F_NOT_READY_USE is set exactly by a request other than INIT that would send a frame, passes the
checks, and finds INIT_STATE ≠ Ready; the request runs all the same. -/
def Obligations.NotReadyUseIsMarkedExactlyBeforeReady : Prop :=
  ∀ (i : Instr) (s : State), s.busy = false → ∃ t, exec i s = .next t
    ∧ (t.fNotReadyUse = true ↔ s.fNotReadyUse = true
        ∨ (i.wellFormed = true ∧ PassesRange i s.cfg ∧ wouldSendFrame i = true ∧ (∀ ct, i ≠ .init ct)
            ∧ s.busOpen = true ∧ s.initState ≠ .ready))

/-! ## Rules of the whole machine -/

/-- The invariant holds at every reset state, and reset keeps it (70_reset_and_hazards.md R240; 10_state.md R36). Inv's clause
that an idle block has the idle transient state Seq.idle, which R36 leaves undefined, is the model's choice, log 12. -/
def Obligations.ResetStateMeetsTheInvariant : Prop :=
  (∀ (c : Cfg) (p : Params), Inv (State.resetWith c p)) ∧ ∀ (c : Cfg) (s : State), Inv s → Inv (applyReset c s)

/-- Every step keeps the invariant: a legal backlight mask, no response 7, frames of the encoder's shape with RW = 0, attempts
only on an open bus, pending primitives that only their request may run, and while INIT is in progress the INIT_STATE of
42_init.md R141 (which marks the assignment as the spec's choice), never Ready. Inv's clause on the idle transient state is the
model's choice, log 12. -/
def Obligations.StepKeepsTheInvariant : Prop := ∀ s t : State, Inv s → step s = .next t → Inv t

/-- 10_state.md R21: no step writes a CFG register; 00_scope.md R6: a design parameter is fixed per instance, so no step writes
one (that the parameters are a field of State is log 5). -/
def Obligations.NoStepWritesTheConfiguration : Prop :=
  ∀ s t : State, step s = .next t → t.cfg = s.cfg ∧ t.par = s.par

/-- 10_state.md R22 to R24, R26 to R28, 60_exceptions.md R200, R205 to R208: each of these registers is written only by a step of
a request that may write it: BL_MASK by BACKLIGHT_SET; BUS_OPEN by OPEN, CLOSE and SHUTDOWN; INIT_STATE by INIT and SHUTDOWN;
CURSOR_TYPE by INIT and RESET_SCREEN; ENTRY_MODE by those two and CHANGE_ENTRY_MODE; and each sticky flag only in its case:
F_ILLEGAL_REQUEST as an illegal word, or OPEN on an open bus, is accepted; F_BUS_NOT_OPEN as a request that would send is accepted
on a closed bus; F_NOT_READY_USE as one other than INIT is accepted on an open bus before Ready; F_BUS_UNAVAILABLE by OPEN on a
closed bus; F_FRAME_DROPPED by a request that may send, on an open bus, with a retry limit; W_INVALID_GEOMETRY by CLEAR_SCREEN,
GOTO and CLEAR_LINE, and W_INVALID_SLOT by CREATE_CUSTOM_CHAR and PRINT_CUSTOM_CHAR, as they are accepted out of range. -/
def Obligations.RegistersAreWrittenOnlyByTheirRequests : Prop :=
  ∀ s t : State, Inv s → step s = .next t →
    (t.blMask ≠ s.blMask → runningOpc s = some 0x10#8)
    ∧ (t.busOpen ≠ s.busOpen → runningOpc s ∈ [some 0x01#8, some 0x02#8, some 0x13#8])
    ∧ (t.initState ≠ s.initState → runningOpc s ∈ [some 0x03#8, some 0x13#8])
    ∧ (t.cursorType ≠ s.cursorType ∨ t.ctValid ≠ s.ctValid → runningOpc s ∈ [some 0x03#8, some 0x04#8])
    ∧ (t.entryMode ≠ s.entryMode ∨ t.emValid ≠ s.emValid →
        runningOpc s ∈ [some 0x03#8, some 0x04#8, some 0x0D#8])
    ∧ (t.fIllegalRequest ≠ s.fIllegalRequest →
        ∃ w, acceptedWord s = some w ∧ (IllegalWord w ∨ w = encode .openBus ∧ s.busOpen = true))
    ∧ (t.fBusNotOpen ≠ s.fBusNotOpen → s.busOpen = false ∧ ∃ w i, acceptedWord s = some w ∧ decode w = .ok i
        ∧ PassesRange i s.cfg ∧ wouldSendFrame i = true)
    ∧ (t.fNotReadyUse ≠ s.fNotReadyUse → s.busOpen = true ∧ s.initState ≠ .ready
        ∧ ∃ w i, acceptedWord s = some w ∧ decode w = .ok i ∧ PassesRange i s.cfg ∧ wouldSendFrame i = true
          ∧ ∀ ct, i ≠ .init ct)
    ∧ (t.fBusUnavailable ≠ s.fBusUnavailable → s.busOpen = false ∧ runningOpc s = some 0x01#8)
    ∧ (t.fFrameDropped ≠ s.fFrameDropped → s.busOpen = true ∧ s.cfg.retryLimit ≠ 0#16
        ∧ ∃ opc, runningOpc s = some opc ∧ maySend opc = true)
    ∧ (t.wInvalidGeometry ≠ s.wInvalidGeometry → ∃ w i, acceptedWord s = some w ∧ decode w = .ok i
        ∧ ¬ PassesRange i s.cfg ∧ reqOpc w ∈ [0x05#8, 0x08#8, 0x12#8])
    ∧ (t.wInvalidSlot ≠ s.wInvalidSlot → ∃ w i, acceptedWord s = some w ∧ decode w = .ok i
        ∧ ¬ PassesRange i s.cfg ∧ reqOpc w ∈ [0x0E#8, 0x0F#8])

/-- 10_state.md R26, R27: no step clears a sticky flag, and the trace only grows. -/
def Obligations.StickyFlagsAreOnlySetAndTraceOnlyGrows : Prop :=
  ∀ s t : State, step s = .next t →
    (s.fBusUnavailable = true → t.fBusUnavailable = true) ∧ (s.fIllegalRequest = true → t.fIllegalRequest = true)
    ∧ (s.fBusNotOpen = true → t.fBusNotOpen = true) ∧ (s.fNotReadyUse = true → t.fNotReadyUse = true)
    ∧ (s.fFrameDropped = true → t.fFrameDropped = true) ∧ (s.wInvalidGeometry = true → t.wInvalidGeometry = true)
    ∧ (s.wInvalidSlot = true → t.wInvalidSlot = true) ∧ ∃ evs, t.trace = s.trace ++ evs

/-- 10_state.md R25: ERRCNT counts every failed attempt, once each, and saturates; nothing else writes it. -/
def Obligations.ErrcntCountsEveryFailedAttempt : Prop :=
  ∀ s t : State, step s = .next t →
    ∃ evs, t.trace = s.trace ++ evs ∧ t.errcnt = satAdd32 s.errcnt (evs.countP isFailedAttempt)

/-- 60_exceptions.md R204, 10_state.md R29, 30_encoding.md R71: a step of a request emits RESP exactly when it completes the
request, as its last event and with the code LAST_RESP then holds; until then LAST_RESP keeps its value. -/
def Obligations.EveryRequestAnswersOnceAsItCompletes : Prop :=
  ∀ s t : State, s.busy = true ∨ s.requests ≠ [] → step s = .next t →
    (t.busy = false → ∃ evs, t.trace = s.trace ++ evs ++ [.resp t.lastResp] ∧ evs.countP isResp = 0)
    ∧ (t.busy = true → t.lastResp = s.lastResp ∧ ∃ evs, t.trace = s.trace ++ evs ∧ evs.countP isResp = 0)

/-- 40_transport.md R104, 20_memory.md R50: every attempt is made on an open bus and addressed to CFG.ADDR. -/
def Obligations.AttemptsOnlyOnAnOpenBusToCfgAddr : Prop :=
  ∀ s t : State, Inv s → step s = .next t →
    ∃ evs, t.trace = s.trace ++ evs ∧ ∀ a f st, Event.frame a f st ∈ evs → a = s.cfg.addr ∧ s.busOpen = true

/-- 60_exceptions.md R213: with CFG.DEBUG = 0 a step emits no LOG; with CFG.DEBUG = 1 it only adds LOG events: without them it
is the same step. -/
def Obligations.DebugFlagOnlyAddsLogEvents : Prop :=
  (∀ s t : State, s.cfg.debug = false → step s = .next t →
    ∃ evs, t.trace = s.trace ++ evs ∧ ∀ e ∈ evs, isLog e = false)
  ∧ ∀ s : State, mapOutcome withoutDebug (step s) = mapOutcome withoutDebug (step (withoutDebug s))

/-- 10_state.md R25 to R29, R33: ERRCNT, the sticky flags, the recorded cursor type and entry mode and LAST_RESP influence
nothing: a step of two states that differ only in them differs only in them. -/
def Obligations.RecordsInfluenceNoRequest : Prop :=
  ∀ s : State, mapOutcome withoutRecords (step s) = mapOutcome withoutRecords (step (withoutRecords s))

/-- 70_reset_and_hazards.md R254: absent retries, a request that passes its checks sends the frames and makes the waits of its
row, and completes. OPEN, which needs a closed bus, is stated apart. -/
def Obligations.FramesAndWaitsOfEveryRequest : Prop :=
  ∀ (i : Instr) (s : State) (rest : List Byte), i ≠ .openBus → i.wellFormed = true → PassesRange i s.cfg →
    payloadLen (encode i) ≤ s.payload.length →
    Served s (frameCount s.cfg i) rest ((waitsOf s.par i).map waitTicks).sum →
    ∃ t evs, exec i s = .next t ∧ t.busy = false ∧ t.trace = s.trace ++ evs
      ∧ evs.countP isAttempt = frameCount s.cfg i
      ∧ evs.filterMap delayOf? = (waitsOf s.par i).filter fun d => d ≠ 0#16

/-- 40_transport.md R105, R108, R109, 10_state.md R32: with a bounded retry limit every request completes, whatever the bus master
answers, once it has answered (1 + CFG.RETRY_LIMIT) attempts for each frame and the pulses of all waits have come. -/
def Obligations.BoundedRetryRequestsComplete : Prop :=
  ∀ (i : Instr) (s : State), s.busy = false → s.cfg.retryLimit ≠ 0#16 →
    s.claims ≠ [] → payloadLen (encode i) ≤ s.payload.length →
    frameCount s.cfg i * (1 + s.cfg.retryLimit.toNat) ≤ s.statuses.length →
    frameCount s.cfg i * s.cfg.retryLimit.toNat * waitTicks s.cfg.retryDelayMs
      + ((waitsOf s.par i).map waitTicks).sum ≤ s.ticks →
    ∃ t, exec i s = .next t ∧ t.busy = false
end

