-- ==== Sys2Proof/Laws/Encoding.lean ====
section
/-! SUPPORT. The fields of a request word built from its fields. -/

namespace Sys2Proof

section
variable (rsv b a opc : Byte)

/-- The bits of a word made of four fields. -/
theorem getLsbD_fields (i : Nat) : BitVec.getLsbD (w := 32) (rsv ++ b ++ a ++ opc) i =
    if i < 8 then opc.getLsbD i else if i < 16 then a.getLsbD (i - 8) else if i < 24 then b.getLsbD (i - 16)
    else rsv.getLsbD (i - 24) := by
  change BitVec.getLsbD (w := 8 + 8 + 8 + 8) (rsv ++ b ++ a ++ opc) i = _
  have h2 : i - 8 - 8 = i - 16 := by omega
  have h3 : i - 16 - 8 = i - 24 := by omega
  simp only [BitVec.getLsbD_append, h2, h3]
  split_ifs <;> first | rfl | omega

theorem reqOpc_append : reqOpc (rsv ++ b ++ a ++ opc) = opc := by
  apply BitVec.eq_of_getLsbD_eq
  intro i hi
  simp only [reqOpc, BitVec.getLsbD_extractLsb', getLsbD_fields]
  simp [hi]

theorem reqA_append : reqA (rsv ++ b ++ a ++ opc) = a := by
  apply BitVec.eq_of_getLsbD_eq
  intro i hi
  simp only [reqA, BitVec.getLsbD_extractLsb', getLsbD_fields]
  rw [if_neg (by omega), if_pos (by omega)]
  simp [hi]

theorem reqB_append : reqB (rsv ++ b ++ a ++ opc) = b := by
  apply BitVec.eq_of_getLsbD_eq
  intro i hi
  simp only [reqB, BitVec.getLsbD_extractLsb', getLsbD_fields]
  rw [if_neg (by omega), if_neg (by omega), if_pos (by omega)]
  simp [hi]

theorem reqRsv_append : reqRsv (rsv ++ b ++ a ++ opc) = rsv := by
  apply BitVec.eq_of_getLsbD_eq
  intro i hi
  simp only [reqRsv, BitVec.getLsbD_extractLsb', getLsbD_fields]
  rw [if_neg (by omega), if_neg (by omega), if_neg (by omega)]
  simp [hi]

@[simp] theorem reqOpc_reqWord : reqOpc (reqWord b a opc) = opc := reqOpc_append _ _ _ _
@[simp] theorem reqA_reqWord : reqA (reqWord b a opc) = a := reqA_append _ _ _ _
@[simp] theorem reqB_reqWord : reqB (reqWord b a opc) = b := reqB_append _ _ _ _
@[simp] theorem reqRsv_reqWord : reqRsv (reqWord b a opc) = 0#8 := reqRsv_append _ _ _ _

end

/-- A word is its four fields. -/
theorem word_of_fields (w : ReqWord) : reqRsv w ++ reqB w ++ reqA w ++ reqOpc w = w := by
  apply BitVec.eq_of_getLsbD_eq
  intro i hi
  simp only [getLsbD_fields, reqOpc, reqA, reqB, reqRsv, BitVec.getLsbD_extractLsb']
  split_ifs with h1 h2 h3
  · simp [h1]
  · rw [show 8 + (i - 8) = i by omega, decide_eq_true (by omega : i - 8 < 8), Bool.true_and]
  · rw [show 16 + (i - 16) = i by omega, decide_eq_true (by omega : i - 16 < 8), Bool.true_and]
  · rw [show 24 + (i - 24) = i by omega, decide_eq_true (by omega : i - 24 < 8), Bool.true_and]

end Sys2Proof
end

