-- ==== Sys2Proof/Laws/PerInstr.lean ====
section
/-! SUPPORT. Per-instruction families: facts about a request as syntax, one lemma per constructor of Instr. -/

namespace Sys2Proof.Laws.ReservedField

/-- RSV is 0 in every word the encoder writes (30_encoding.md R74), and OPC is one of 0x01 to 0x14 (R75). -/
def Statement (i : Instr) : Prop :=
  reqRsv (encode i) = 0#8 ∧ 0x01 ≤ (reqOpc (encode i)).toNat ∧ (reqOpc (encode i)).toNat ≤ 0x14

theorem openBus : Statement .openBus := by simp [Statement, encode]
theorem close : Statement .close := by simp [Statement, encode]
theorem init (ct : Byte) : Statement (.init ct) := by simp [Statement, encode]
theorem resetScreen (ct : Byte) : Statement (.resetScreen ct) := by simp [Statement, encode]
theorem clearScreen : Statement .clearScreen := by simp [Statement, encode]
theorem clearScreenCmd : Statement .clearScreenCmd := by simp [Statement, encode]
theorem home : Statement .home := by simp [Statement, encode]
theorem goto (row col : Byte) : Statement (.goto row col) := by simp [Statement, encode]
theorem sendChar (ch : Byte) : Statement (.sendChar ch) := by simp [Statement, encode]
theorem sendString (n : Byte) : Statement (.sendString n) := by simp [Statement, encode]
theorem moveCursor (dir count : Byte) : Statement (.moveCursor dir count) := by simp [Statement, encode]
theorem scroll (dir count : Byte) : Statement (.scroll dir count) := by simp [Statement, encode]
theorem changeEntryMode (mode : Byte) : Statement (.changeEntryMode mode) := by simp [Statement, encode]
theorem createCustomChar (slot : Byte) : Statement (.createCustomChar slot) := by simp [Statement, encode]
theorem printCustomChar (slot : Byte) : Statement (.printCustomChar slot) := by simp [Statement, encode]
theorem backlightSet (on : Byte) : Statement (.backlightSet on) := by simp [Statement, encode]
theorem displayOn (on : Byte) : Statement (.displayOn on) := by simp [Statement, encode]
theorem clearLine (row : Byte) : Statement (.clearLine row) := by simp [Statement, encode]
theorem shutdown : Statement .shutdown := by simp [Statement, encode]
theorem sendCmd (c : Byte) : Statement (.sendCmd c) := by simp [Statement, encode]

end Sys2Proof.Laws.ReservedField
end

