-- ==== Sys2Proof/Laws/State.lean ====
section
/-! SUPPORT. The fields of a state after each shared update, one lemma each, so that no proof unfolds a record update. -/

namespace Sys2Proof.Machine

/-! ## emit -/

@[simp] theorem emit_cfg (e : Event) (s : State) : (emit e s).cfg = s.cfg := rfl
@[simp] theorem emit_par (e : Event) (s : State) : (emit e s).par = s.par := rfl
@[simp] theorem emit_blMask (e : Event) (s : State) : (emit e s).blMask = s.blMask := rfl
@[simp] theorem emit_busOpen (e : Event) (s : State) : (emit e s).busOpen = s.busOpen := rfl
@[simp] theorem emit_initState (e : Event) (s : State) : (emit e s).initState = s.initState := rfl
@[simp] theorem emit_errcnt (e : Event) (s : State) : (emit e s).errcnt = s.errcnt := rfl
@[simp] theorem emit_fBusUnavailable (e : Event) (s : State) : (emit e s).fBusUnavailable = s.fBusUnavailable := rfl
@[simp] theorem emit_fIllegalRequest (e : Event) (s : State) : (emit e s).fIllegalRequest = s.fIllegalRequest := rfl
@[simp] theorem emit_fBusNotOpen (e : Event) (s : State) : (emit e s).fBusNotOpen = s.fBusNotOpen := rfl
@[simp] theorem emit_fNotReadyUse (e : Event) (s : State) : (emit e s).fNotReadyUse = s.fNotReadyUse := rfl
@[simp] theorem emit_fFrameDropped (e : Event) (s : State) : (emit e s).fFrameDropped = s.fFrameDropped := rfl
@[simp] theorem emit_wInvalidGeometry (e : Event) (s : State) : (emit e s).wInvalidGeometry = s.wInvalidGeometry := rfl
@[simp] theorem emit_wInvalidSlot (e : Event) (s : State) : (emit e s).wInvalidSlot = s.wInvalidSlot := rfl
@[simp] theorem emit_cursorType (e : Event) (s : State) : (emit e s).cursorType = s.cursorType := rfl
@[simp] theorem emit_ctValid (e : Event) (s : State) : (emit e s).ctValid = s.ctValid := rfl
@[simp] theorem emit_entryMode (e : Event) (s : State) : (emit e s).entryMode = s.entryMode := rfl
@[simp] theorem emit_emValid (e : Event) (s : State) : (emit e s).emValid = s.emValid := rfl
@[simp] theorem emit_lastResp (e : Event) (s : State) : (emit e s).lastResp = s.lastResp := rfl
@[simp] theorem emit_busy (e : Event) (s : State) : (emit e s).busy = s.busy := rfl
@[simp] theorem emit_seq (e : Event) (s : State) : (emit e s).seq = s.seq := rfl
@[simp] theorem emit_trace (e : Event) (s : State) : (emit e s).trace = s.trace ++ [e] := rfl
@[simp] theorem emit_requests (e : Event) (s : State) : (emit e s).requests = s.requests := rfl
@[simp] theorem emit_payload (e : Event) (s : State) : (emit e s).payload = s.payload := rfl
@[simp] theorem emit_statuses (e : Event) (s : State) : (emit e s).statuses = s.statuses := rfl
@[simp] theorem emit_claims (e : Event) (s : State) : (emit e s).claims = s.claims := rfl
@[simp] theorem emit_ticks (e : Event) (s : State) : (emit e s).ticks = s.ticks := rfl

/-! ## logEvent -/

@[simp] theorem logEvent_cfg (k : LogKind) (i : Half) (s : State) : (logEvent k i s).cfg = s.cfg := by unfold logEvent; split <;> rfl
@[simp] theorem logEvent_par (k : LogKind) (i : Half) (s : State) : (logEvent k i s).par = s.par := by unfold logEvent; split <;> rfl
@[simp] theorem logEvent_blMask (k : LogKind) (i : Half) (s : State) : (logEvent k i s).blMask = s.blMask := by unfold logEvent; split <;> rfl
@[simp] theorem logEvent_busOpen (k : LogKind) (i : Half) (s : State) : (logEvent k i s).busOpen = s.busOpen := by unfold logEvent; split <;> rfl
@[simp] theorem logEvent_initState (k : LogKind) (i : Half) (s : State) : (logEvent k i s).initState = s.initState := by unfold logEvent; split <;> rfl
@[simp] theorem logEvent_errcnt (k : LogKind) (i : Half) (s : State) : (logEvent k i s).errcnt = s.errcnt := by unfold logEvent; split <;> rfl
@[simp] theorem logEvent_fBusUnavailable (k : LogKind) (i : Half) (s : State) : (logEvent k i s).fBusUnavailable = s.fBusUnavailable := by unfold logEvent; split <;> rfl
@[simp] theorem logEvent_fIllegalRequest (k : LogKind) (i : Half) (s : State) : (logEvent k i s).fIllegalRequest = s.fIllegalRequest := by unfold logEvent; split <;> rfl
@[simp] theorem logEvent_fBusNotOpen (k : LogKind) (i : Half) (s : State) : (logEvent k i s).fBusNotOpen = s.fBusNotOpen := by unfold logEvent; split <;> rfl
@[simp] theorem logEvent_fNotReadyUse (k : LogKind) (i : Half) (s : State) : (logEvent k i s).fNotReadyUse = s.fNotReadyUse := by unfold logEvent; split <;> rfl
@[simp] theorem logEvent_fFrameDropped (k : LogKind) (i : Half) (s : State) : (logEvent k i s).fFrameDropped = s.fFrameDropped := by unfold logEvent; split <;> rfl
@[simp] theorem logEvent_wInvalidGeometry (k : LogKind) (i : Half) (s : State) : (logEvent k i s).wInvalidGeometry = s.wInvalidGeometry := by unfold logEvent; split <;> rfl
@[simp] theorem logEvent_wInvalidSlot (k : LogKind) (i : Half) (s : State) : (logEvent k i s).wInvalidSlot = s.wInvalidSlot := by unfold logEvent; split <;> rfl
@[simp] theorem logEvent_cursorType (k : LogKind) (i : Half) (s : State) : (logEvent k i s).cursorType = s.cursorType := by unfold logEvent; split <;> rfl
@[simp] theorem logEvent_ctValid (k : LogKind) (i : Half) (s : State) : (logEvent k i s).ctValid = s.ctValid := by unfold logEvent; split <;> rfl
@[simp] theorem logEvent_entryMode (k : LogKind) (i : Half) (s : State) : (logEvent k i s).entryMode = s.entryMode := by unfold logEvent; split <;> rfl
@[simp] theorem logEvent_emValid (k : LogKind) (i : Half) (s : State) : (logEvent k i s).emValid = s.emValid := by unfold logEvent; split <;> rfl
@[simp] theorem logEvent_lastResp (k : LogKind) (i : Half) (s : State) : (logEvent k i s).lastResp = s.lastResp := by unfold logEvent; split <;> rfl
@[simp] theorem logEvent_busy (k : LogKind) (i : Half) (s : State) : (logEvent k i s).busy = s.busy := by unfold logEvent; split <;> rfl
@[simp] theorem logEvent_seq (k : LogKind) (i : Half) (s : State) : (logEvent k i s).seq = s.seq := by unfold logEvent; split <;> rfl
@[simp] theorem logEvent_requests (k : LogKind) (i : Half) (s : State) : (logEvent k i s).requests = s.requests := by unfold logEvent; split <;> rfl
@[simp] theorem logEvent_payload (k : LogKind) (i : Half) (s : State) : (logEvent k i s).payload = s.payload := by unfold logEvent; split <;> rfl
@[simp] theorem logEvent_statuses (k : LogKind) (i : Half) (s : State) : (logEvent k i s).statuses = s.statuses := by unfold logEvent; split <;> rfl
@[simp] theorem logEvent_claims (k : LogKind) (i : Half) (s : State) : (logEvent k i s).claims = s.claims := by unfold logEvent; split <;> rfl
@[simp] theorem logEvent_ticks (k : LogKind) (i : Half) (s : State) : (logEvent k i s).ticks = s.ticks := by unfold logEvent; split <;> rfl

/-! ## countFailure -/

@[simp] theorem countFailure_cfg (s : State) : (countFailure s).cfg = s.cfg := rfl
@[simp] theorem countFailure_par (s : State) : (countFailure s).par = s.par := rfl
@[simp] theorem countFailure_blMask (s : State) : (countFailure s).blMask = s.blMask := rfl
@[simp] theorem countFailure_busOpen (s : State) : (countFailure s).busOpen = s.busOpen := rfl
@[simp] theorem countFailure_initState (s : State) : (countFailure s).initState = s.initState := rfl
@[simp] theorem countFailure_errcnt (s : State) : (countFailure s).errcnt = satInc32 s.errcnt := rfl
@[simp] theorem countFailure_fBusUnavailable (s : State) : (countFailure s).fBusUnavailable = s.fBusUnavailable := rfl
@[simp] theorem countFailure_fIllegalRequest (s : State) : (countFailure s).fIllegalRequest = s.fIllegalRequest := rfl
@[simp] theorem countFailure_fBusNotOpen (s : State) : (countFailure s).fBusNotOpen = s.fBusNotOpen := rfl
@[simp] theorem countFailure_fNotReadyUse (s : State) : (countFailure s).fNotReadyUse = s.fNotReadyUse := rfl
@[simp] theorem countFailure_fFrameDropped (s : State) : (countFailure s).fFrameDropped = s.fFrameDropped := rfl
@[simp] theorem countFailure_wInvalidGeometry (s : State) : (countFailure s).wInvalidGeometry = s.wInvalidGeometry := rfl
@[simp] theorem countFailure_wInvalidSlot (s : State) : (countFailure s).wInvalidSlot = s.wInvalidSlot := rfl
@[simp] theorem countFailure_cursorType (s : State) : (countFailure s).cursorType = s.cursorType := rfl
@[simp] theorem countFailure_ctValid (s : State) : (countFailure s).ctValid = s.ctValid := rfl
@[simp] theorem countFailure_entryMode (s : State) : (countFailure s).entryMode = s.entryMode := rfl
@[simp] theorem countFailure_emValid (s : State) : (countFailure s).emValid = s.emValid := rfl
@[simp] theorem countFailure_lastResp (s : State) : (countFailure s).lastResp = s.lastResp := rfl
@[simp] theorem countFailure_busy (s : State) : (countFailure s).busy = s.busy := rfl
@[simp] theorem countFailure_seq (s : State) : (countFailure s).seq = s.seq := rfl
@[simp] theorem countFailure_trace (s : State) : (countFailure s).trace = s.trace := rfl
@[simp] theorem countFailure_requests (s : State) : (countFailure s).requests = s.requests := rfl
@[simp] theorem countFailure_payload (s : State) : (countFailure s).payload = s.payload := rfl
@[simp] theorem countFailure_statuses (s : State) : (countFailure s).statuses = s.statuses := rfl
@[simp] theorem countFailure_claims (s : State) : (countFailure s).claims = s.claims := rfl
@[simp] theorem countFailure_ticks (s : State) : (countFailure s).ticks = s.ticks := rfl

/-! ## setPhase -/

@[simp] theorem setPhase_cfg (p : Phase) (s : State) : (setPhase p s).cfg = s.cfg := rfl
@[simp] theorem setPhase_par (p : Phase) (s : State) : (setPhase p s).par = s.par := rfl
@[simp] theorem setPhase_blMask (p : Phase) (s : State) : (setPhase p s).blMask = s.blMask := rfl
@[simp] theorem setPhase_busOpen (p : Phase) (s : State) : (setPhase p s).busOpen = s.busOpen := rfl
@[simp] theorem setPhase_initState (p : Phase) (s : State) : (setPhase p s).initState = s.initState := rfl
@[simp] theorem setPhase_errcnt (p : Phase) (s : State) : (setPhase p s).errcnt = s.errcnt := rfl
@[simp] theorem setPhase_fBusUnavailable (p : Phase) (s : State) : (setPhase p s).fBusUnavailable = s.fBusUnavailable := rfl
@[simp] theorem setPhase_fIllegalRequest (p : Phase) (s : State) : (setPhase p s).fIllegalRequest = s.fIllegalRequest := rfl
@[simp] theorem setPhase_fBusNotOpen (p : Phase) (s : State) : (setPhase p s).fBusNotOpen = s.fBusNotOpen := rfl
@[simp] theorem setPhase_fNotReadyUse (p : Phase) (s : State) : (setPhase p s).fNotReadyUse = s.fNotReadyUse := rfl
@[simp] theorem setPhase_fFrameDropped (p : Phase) (s : State) : (setPhase p s).fFrameDropped = s.fFrameDropped := rfl
@[simp] theorem setPhase_wInvalidGeometry (p : Phase) (s : State) : (setPhase p s).wInvalidGeometry = s.wInvalidGeometry := rfl
@[simp] theorem setPhase_wInvalidSlot (p : Phase) (s : State) : (setPhase p s).wInvalidSlot = s.wInvalidSlot := rfl
@[simp] theorem setPhase_cursorType (p : Phase) (s : State) : (setPhase p s).cursorType = s.cursorType := rfl
@[simp] theorem setPhase_ctValid (p : Phase) (s : State) : (setPhase p s).ctValid = s.ctValid := rfl
@[simp] theorem setPhase_entryMode (p : Phase) (s : State) : (setPhase p s).entryMode = s.entryMode := rfl
@[simp] theorem setPhase_emValid (p : Phase) (s : State) : (setPhase p s).emValid = s.emValid := rfl
@[simp] theorem setPhase_lastResp (p : Phase) (s : State) : (setPhase p s).lastResp = s.lastResp := rfl
@[simp] theorem setPhase_busy (p : Phase) (s : State) : (setPhase p s).busy = s.busy := rfl
@[simp] theorem setPhase_seq (p : Phase) (s : State) : (setPhase p s).seq = { s.seq with phase := p } := rfl
@[simp] theorem setPhase_trace (p : Phase) (s : State) : (setPhase p s).trace = s.trace := rfl
@[simp] theorem setPhase_requests (p : Phase) (s : State) : (setPhase p s).requests = s.requests := rfl
@[simp] theorem setPhase_payload (p : Phase) (s : State) : (setPhase p s).payload = s.payload := rfl
@[simp] theorem setPhase_statuses (p : Phase) (s : State) : (setPhase p s).statuses = s.statuses := rfl
@[simp] theorem setPhase_claims (p : Phase) (s : State) : (setPhase p s).claims = s.claims := rfl
@[simp] theorem setPhase_ticks (p : Phase) (s : State) : (setPhase p s).ticks = s.ticks := rfl

/-! ## answered -/

@[simp] theorem answered_cfg (f : Frame) (st : Byte) (rest : List Byte) (s : State) : (answered f st rest s).cfg = s.cfg := rfl
@[simp] theorem answered_par (f : Frame) (st : Byte) (rest : List Byte) (s : State) : (answered f st rest s).par = s.par := rfl
@[simp] theorem answered_blMask (f : Frame) (st : Byte) (rest : List Byte) (s : State) : (answered f st rest s).blMask = s.blMask := rfl
@[simp] theorem answered_busOpen (f : Frame) (st : Byte) (rest : List Byte) (s : State) : (answered f st rest s).busOpen = s.busOpen := rfl
@[simp] theorem answered_initState (f : Frame) (st : Byte) (rest : List Byte) (s : State) : (answered f st rest s).initState = s.initState := rfl
@[simp] theorem answered_errcnt (f : Frame) (st : Byte) (rest : List Byte) (s : State) : (answered f st rest s).errcnt = s.errcnt := rfl
@[simp] theorem answered_fBusUnavailable (f : Frame) (st : Byte) (rest : List Byte) (s : State) : (answered f st rest s).fBusUnavailable = s.fBusUnavailable := rfl
@[simp] theorem answered_fIllegalRequest (f : Frame) (st : Byte) (rest : List Byte) (s : State) : (answered f st rest s).fIllegalRequest = s.fIllegalRequest := rfl
@[simp] theorem answered_fBusNotOpen (f : Frame) (st : Byte) (rest : List Byte) (s : State) : (answered f st rest s).fBusNotOpen = s.fBusNotOpen := rfl
@[simp] theorem answered_fNotReadyUse (f : Frame) (st : Byte) (rest : List Byte) (s : State) : (answered f st rest s).fNotReadyUse = s.fNotReadyUse := rfl
@[simp] theorem answered_fFrameDropped (f : Frame) (st : Byte) (rest : List Byte) (s : State) : (answered f st rest s).fFrameDropped = s.fFrameDropped := rfl
@[simp] theorem answered_wInvalidGeometry (f : Frame) (st : Byte) (rest : List Byte) (s : State) : (answered f st rest s).wInvalidGeometry = s.wInvalidGeometry := rfl
@[simp] theorem answered_wInvalidSlot (f : Frame) (st : Byte) (rest : List Byte) (s : State) : (answered f st rest s).wInvalidSlot = s.wInvalidSlot := rfl
@[simp] theorem answered_cursorType (f : Frame) (st : Byte) (rest : List Byte) (s : State) : (answered f st rest s).cursorType = s.cursorType := rfl
@[simp] theorem answered_ctValid (f : Frame) (st : Byte) (rest : List Byte) (s : State) : (answered f st rest s).ctValid = s.ctValid := rfl
@[simp] theorem answered_entryMode (f : Frame) (st : Byte) (rest : List Byte) (s : State) : (answered f st rest s).entryMode = s.entryMode := rfl
@[simp] theorem answered_emValid (f : Frame) (st : Byte) (rest : List Byte) (s : State) : (answered f st rest s).emValid = s.emValid := rfl
@[simp] theorem answered_lastResp (f : Frame) (st : Byte) (rest : List Byte) (s : State) : (answered f st rest s).lastResp = s.lastResp := rfl
@[simp] theorem answered_busy (f : Frame) (st : Byte) (rest : List Byte) (s : State) : (answered f st rest s).busy = s.busy := rfl
@[simp] theorem answered_seq (f : Frame) (st : Byte) (rest : List Byte) (s : State) : (answered f st rest s).seq = s.seq := rfl
@[simp] theorem answered_trace (f : Frame) (st : Byte) (rest : List Byte) (s : State) : (answered f st rest s).trace = s.trace ++ [.frame s.cfg.addr f st] := rfl
@[simp] theorem answered_requests (f : Frame) (st : Byte) (rest : List Byte) (s : State) : (answered f st rest s).requests = s.requests := rfl
@[simp] theorem answered_payload (f : Frame) (st : Byte) (rest : List Byte) (s : State) : (answered f st rest s).payload = s.payload := rfl
@[simp] theorem answered_statuses (f : Frame) (st : Byte) (rest : List Byte) (s : State) : (answered f st rest s).statuses = rest := rfl
@[simp] theorem answered_claims (f : Frame) (st : Byte) (rest : List Byte) (s : State) : (answered f st rest s).claims = s.claims := rfl
@[simp] theorem answered_ticks (f : Frame) (st : Byte) (rest : List Byte) (s : State) : (answered f st rest s).ticks = s.ticks := rfl

/-! ## dropFrame -/

@[simp] theorem dropFrame_cfg (st : Byte) (s : State) : (dropFrame st s).cfg = s.cfg := by simp [dropFrame]
@[simp] theorem dropFrame_par (st : Byte) (s : State) : (dropFrame st s).par = s.par := by simp [dropFrame]
@[simp] theorem dropFrame_blMask (st : Byte) (s : State) : (dropFrame st s).blMask = s.blMask := by simp [dropFrame]
@[simp] theorem dropFrame_busOpen (st : Byte) (s : State) : (dropFrame st s).busOpen = s.busOpen := by simp [dropFrame]
@[simp] theorem dropFrame_initState (st : Byte) (s : State) : (dropFrame st s).initState = s.initState := by simp [dropFrame]
@[simp] theorem dropFrame_errcnt (st : Byte) (s : State) : (dropFrame st s).errcnt = s.errcnt := by simp [dropFrame]
@[simp] theorem dropFrame_fBusUnavailable (st : Byte) (s : State) : (dropFrame st s).fBusUnavailable = s.fBusUnavailable := by simp [dropFrame]
@[simp] theorem dropFrame_fIllegalRequest (st : Byte) (s : State) : (dropFrame st s).fIllegalRequest = s.fIllegalRequest := by simp [dropFrame]
@[simp] theorem dropFrame_fBusNotOpen (st : Byte) (s : State) : (dropFrame st s).fBusNotOpen = s.fBusNotOpen := by simp [dropFrame]
@[simp] theorem dropFrame_fNotReadyUse (st : Byte) (s : State) : (dropFrame st s).fNotReadyUse = s.fNotReadyUse := by simp [dropFrame]
@[simp] theorem dropFrame_fFrameDropped (st : Byte) (s : State) : (dropFrame st s).fFrameDropped = true := by simp [dropFrame]
@[simp] theorem dropFrame_wInvalidGeometry (st : Byte) (s : State) : (dropFrame st s).wInvalidGeometry = s.wInvalidGeometry := by simp [dropFrame]
@[simp] theorem dropFrame_wInvalidSlot (st : Byte) (s : State) : (dropFrame st s).wInvalidSlot = s.wInvalidSlot := by simp [dropFrame]
@[simp] theorem dropFrame_cursorType (st : Byte) (s : State) : (dropFrame st s).cursorType = s.cursorType := by simp [dropFrame]
@[simp] theorem dropFrame_ctValid (st : Byte) (s : State) : (dropFrame st s).ctValid = s.ctValid := by simp [dropFrame]
@[simp] theorem dropFrame_entryMode (st : Byte) (s : State) : (dropFrame st s).entryMode = s.entryMode := by simp [dropFrame]
@[simp] theorem dropFrame_emValid (st : Byte) (s : State) : (dropFrame st s).emValid = s.emValid := by simp [dropFrame]
@[simp] theorem dropFrame_lastResp (st : Byte) (s : State) : (dropFrame st s).lastResp = s.lastResp := by simp [dropFrame]
@[simp] theorem dropFrame_busy (st : Byte) (s : State) : (dropFrame st s).busy = s.busy := by simp [dropFrame]
@[simp] theorem dropFrame_seq (st : Byte) (s : State) : (dropFrame st s).seq = { s.seq with dropped := true } := by simp [dropFrame]
@[simp] theorem dropFrame_requests (st : Byte) (s : State) : (dropFrame st s).requests = s.requests := by simp [dropFrame]
@[simp] theorem dropFrame_payload (st : Byte) (s : State) : (dropFrame st s).payload = s.payload := by simp [dropFrame]
@[simp] theorem dropFrame_statuses (st : Byte) (s : State) : (dropFrame st s).statuses = s.statuses := by simp [dropFrame]
@[simp] theorem dropFrame_claims (st : Byte) (s : State) : (dropFrame st s).claims = s.claims := by simp [dropFrame]
@[simp] theorem dropFrame_ticks (st : Byte) (s : State) : (dropFrame st s).ticks = s.ticks := by simp [dropFrame]

/-! ## markNotReady -/

@[simp] theorem markNotReady_cfg (s : State) : (markNotReady s).cfg = s.cfg := rfl
@[simp] theorem markNotReady_par (s : State) : (markNotReady s).par = s.par := rfl
@[simp] theorem markNotReady_blMask (s : State) : (markNotReady s).blMask = s.blMask := rfl
@[simp] theorem markNotReady_busOpen (s : State) : (markNotReady s).busOpen = s.busOpen := rfl
@[simp] theorem markNotReady_initState (s : State) : (markNotReady s).initState = s.initState := rfl
@[simp] theorem markNotReady_errcnt (s : State) : (markNotReady s).errcnt = s.errcnt := rfl
@[simp] theorem markNotReady_fBusUnavailable (s : State) : (markNotReady s).fBusUnavailable = s.fBusUnavailable := rfl
@[simp] theorem markNotReady_fIllegalRequest (s : State) : (markNotReady s).fIllegalRequest = s.fIllegalRequest := rfl
@[simp] theorem markNotReady_fBusNotOpen (s : State) : (markNotReady s).fBusNotOpen = s.fBusNotOpen := rfl
@[simp] theorem markNotReady_fNotReadyUse (s : State) : (markNotReady s).fNotReadyUse = (s.fNotReadyUse || s.initState != .ready) := rfl
@[simp] theorem markNotReady_fFrameDropped (s : State) : (markNotReady s).fFrameDropped = s.fFrameDropped := rfl
@[simp] theorem markNotReady_wInvalidGeometry (s : State) : (markNotReady s).wInvalidGeometry = s.wInvalidGeometry := rfl
@[simp] theorem markNotReady_wInvalidSlot (s : State) : (markNotReady s).wInvalidSlot = s.wInvalidSlot := rfl
@[simp] theorem markNotReady_cursorType (s : State) : (markNotReady s).cursorType = s.cursorType := rfl
@[simp] theorem markNotReady_ctValid (s : State) : (markNotReady s).ctValid = s.ctValid := rfl
@[simp] theorem markNotReady_entryMode (s : State) : (markNotReady s).entryMode = s.entryMode := rfl
@[simp] theorem markNotReady_emValid (s : State) : (markNotReady s).emValid = s.emValid := rfl
@[simp] theorem markNotReady_lastResp (s : State) : (markNotReady s).lastResp = s.lastResp := rfl
@[simp] theorem markNotReady_busy (s : State) : (markNotReady s).busy = s.busy := rfl
@[simp] theorem markNotReady_seq (s : State) : (markNotReady s).seq = s.seq := rfl
@[simp] theorem markNotReady_trace (s : State) : (markNotReady s).trace = s.trace := rfl
@[simp] theorem markNotReady_requests (s : State) : (markNotReady s).requests = s.requests := rfl
@[simp] theorem markNotReady_payload (s : State) : (markNotReady s).payload = s.payload := rfl
@[simp] theorem markNotReady_statuses (s : State) : (markNotReady s).statuses = s.statuses := rfl
@[simp] theorem markNotReady_claims (s : State) : (markNotReady s).claims = s.claims := rfl
@[simp] theorem markNotReady_ticks (s : State) : (markNotReady s).ticks = s.ticks := rfl

/-! ## accept -/

@[simp] theorem accept_cfg (w : ReqWord) (s : State) : (accept w s).cfg = s.cfg := rfl
@[simp] theorem accept_par (w : ReqWord) (s : State) : (accept w s).par = s.par := rfl
@[simp] theorem accept_blMask (w : ReqWord) (s : State) : (accept w s).blMask = s.blMask := rfl
@[simp] theorem accept_busOpen (w : ReqWord) (s : State) : (accept w s).busOpen = s.busOpen := rfl
@[simp] theorem accept_initState (w : ReqWord) (s : State) : (accept w s).initState = s.initState := rfl
@[simp] theorem accept_errcnt (w : ReqWord) (s : State) : (accept w s).errcnt = s.errcnt := rfl
@[simp] theorem accept_fBusUnavailable (w : ReqWord) (s : State) : (accept w s).fBusUnavailable = s.fBusUnavailable := rfl
@[simp] theorem accept_fIllegalRequest (w : ReqWord) (s : State) : (accept w s).fIllegalRequest = s.fIllegalRequest := rfl
@[simp] theorem accept_fBusNotOpen (w : ReqWord) (s : State) : (accept w s).fBusNotOpen = s.fBusNotOpen := rfl
@[simp] theorem accept_fNotReadyUse (w : ReqWord) (s : State) : (accept w s).fNotReadyUse = s.fNotReadyUse := rfl
@[simp] theorem accept_fFrameDropped (w : ReqWord) (s : State) : (accept w s).fFrameDropped = s.fFrameDropped := rfl
@[simp] theorem accept_wInvalidGeometry (w : ReqWord) (s : State) : (accept w s).wInvalidGeometry = s.wInvalidGeometry := rfl
@[simp] theorem accept_wInvalidSlot (w : ReqWord) (s : State) : (accept w s).wInvalidSlot = s.wInvalidSlot := rfl
@[simp] theorem accept_cursorType (w : ReqWord) (s : State) : (accept w s).cursorType = s.cursorType := rfl
@[simp] theorem accept_ctValid (w : ReqWord) (s : State) : (accept w s).ctValid = s.ctValid := rfl
@[simp] theorem accept_entryMode (w : ReqWord) (s : State) : (accept w s).entryMode = s.entryMode := rfl
@[simp] theorem accept_emValid (w : ReqWord) (s : State) : (accept w s).emValid = s.emValid := rfl
@[simp] theorem accept_lastResp (w : ReqWord) (s : State) : (accept w s).lastResp = s.lastResp := rfl
@[simp] theorem accept_busy (w : ReqWord) (s : State) : (accept w s).busy = true := rfl
@[simp] theorem accept_seq (w : ReqWord) (s : State) : (accept w s).seq = { Seq.idle with word := w } := rfl
@[simp] theorem accept_trace (w : ReqWord) (s : State) : (accept w s).trace = s.trace := rfl
@[simp] theorem accept_requests (w : ReqWord) (s : State) : (accept w s).requests = s.requests := rfl
@[simp] theorem accept_payload (w : ReqWord) (s : State) : (accept w s).payload = s.payload := rfl
@[simp] theorem accept_statuses (w : ReqWord) (s : State) : (accept w s).statuses = s.statuses := rfl
@[simp] theorem accept_claims (w : ReqWord) (s : State) : (accept w s).claims = s.claims := rfl
@[simp] theorem accept_ticks (w : ReqWord) (s : State) : (accept w s).ticks = s.ticks := rfl

/-! ## complete -/

@[simp] theorem complete_cfg (s : State) : (complete s).cfg = s.cfg := rfl
@[simp] theorem complete_par (s : State) : (complete s).par = s.par := rfl
@[simp] theorem complete_blMask (s : State) : (complete s).blMask = s.blMask := rfl
@[simp] theorem complete_busOpen (s : State) : (complete s).busOpen = s.busOpen := rfl
@[simp] theorem complete_initState (s : State) : (complete s).initState = s.initState := rfl
@[simp] theorem complete_errcnt (s : State) : (complete s).errcnt = s.errcnt := rfl
@[simp] theorem complete_fBusUnavailable (s : State) : (complete s).fBusUnavailable = s.fBusUnavailable := rfl
@[simp] theorem complete_fIllegalRequest (s : State) : (complete s).fIllegalRequest = s.fIllegalRequest := rfl
@[simp] theorem complete_fBusNotOpen (s : State) : (complete s).fBusNotOpen = s.fBusNotOpen := rfl
@[simp] theorem complete_fNotReadyUse (s : State) : (complete s).fNotReadyUse = s.fNotReadyUse := rfl
@[simp] theorem complete_fFrameDropped (s : State) : (complete s).fFrameDropped = s.fFrameDropped := rfl
@[simp] theorem complete_wInvalidGeometry (s : State) : (complete s).wInvalidGeometry = s.wInvalidGeometry := rfl
@[simp] theorem complete_wInvalidSlot (s : State) : (complete s).wInvalidSlot = s.wInvalidSlot := rfl
@[simp] theorem complete_cursorType (s : State) : (complete s).cursorType = s.cursorType := rfl
@[simp] theorem complete_ctValid (s : State) : (complete s).ctValid = s.ctValid := rfl
@[simp] theorem complete_entryMode (s : State) : (complete s).entryMode = s.entryMode := rfl
@[simp] theorem complete_emValid (s : State) : (complete s).emValid = s.emValid := rfl
@[simp] theorem complete_lastResp (s : State) : (complete s).lastResp = respCode s.seq := rfl
@[simp] theorem complete_busy (s : State) : (complete s).busy = false := rfl
@[simp] theorem complete_seq (s : State) : (complete s).seq = Seq.idle := rfl
@[simp] theorem complete_trace (s : State) : (complete s).trace = s.trace ++ [.resp (respCode s.seq)] := rfl
@[simp] theorem complete_requests (s : State) : (complete s).requests = s.requests := rfl
@[simp] theorem complete_payload (s : State) : (complete s).payload = s.payload := rfl
@[simp] theorem complete_statuses (s : State) : (complete s).statuses = s.statuses := rfl
@[simp] theorem complete_claims (s : State) : (complete s).claims = s.claims := rfl
@[simp] theorem complete_ticks (s : State) : (complete s).ticks = s.ticks := rfl

/-! ## releaseBus -/

@[simp] theorem releaseBus_cfg (s : State) : (releaseBus s).cfg = s.cfg := rfl
@[simp] theorem releaseBus_par (s : State) : (releaseBus s).par = s.par := rfl
@[simp] theorem releaseBus_blMask (s : State) : (releaseBus s).blMask = s.blMask := rfl
@[simp] theorem releaseBus_busOpen (s : State) : (releaseBus s).busOpen = false := rfl
@[simp] theorem releaseBus_initState (s : State) : (releaseBus s).initState = s.initState := rfl
@[simp] theorem releaseBus_errcnt (s : State) : (releaseBus s).errcnt = s.errcnt := rfl
@[simp] theorem releaseBus_fBusUnavailable (s : State) : (releaseBus s).fBusUnavailable = s.fBusUnavailable := rfl
@[simp] theorem releaseBus_fIllegalRequest (s : State) : (releaseBus s).fIllegalRequest = s.fIllegalRequest := rfl
@[simp] theorem releaseBus_fBusNotOpen (s : State) : (releaseBus s).fBusNotOpen = s.fBusNotOpen := rfl
@[simp] theorem releaseBus_fNotReadyUse (s : State) : (releaseBus s).fNotReadyUse = s.fNotReadyUse := rfl
@[simp] theorem releaseBus_fFrameDropped (s : State) : (releaseBus s).fFrameDropped = s.fFrameDropped := rfl
@[simp] theorem releaseBus_wInvalidGeometry (s : State) : (releaseBus s).wInvalidGeometry = s.wInvalidGeometry := rfl
@[simp] theorem releaseBus_wInvalidSlot (s : State) : (releaseBus s).wInvalidSlot = s.wInvalidSlot := rfl
@[simp] theorem releaseBus_cursorType (s : State) : (releaseBus s).cursorType = s.cursorType := rfl
@[simp] theorem releaseBus_ctValid (s : State) : (releaseBus s).ctValid = s.ctValid := rfl
@[simp] theorem releaseBus_entryMode (s : State) : (releaseBus s).entryMode = s.entryMode := rfl
@[simp] theorem releaseBus_emValid (s : State) : (releaseBus s).emValid = s.emValid := rfl
@[simp] theorem releaseBus_lastResp (s : State) : (releaseBus s).lastResp = s.lastResp := rfl
@[simp] theorem releaseBus_busy (s : State) : (releaseBus s).busy = s.busy := rfl
@[simp] theorem releaseBus_seq (s : State) : (releaseBus s).seq = s.seq := rfl
@[simp] theorem releaseBus_trace (s : State) : (releaseBus s).trace = s.trace ++ [.release] := rfl
@[simp] theorem releaseBus_requests (s : State) : (releaseBus s).requests = s.requests := rfl
@[simp] theorem releaseBus_payload (s : State) : (releaseBus s).payload = s.payload := rfl
@[simp] theorem releaseBus_statuses (s : State) : (releaseBus s).statuses = s.statuses := rfl
@[simp] theorem releaseBus_claims (s : State) : (releaseBus s).claims = s.claims := rfl
@[simp] theorem releaseBus_ticks (s : State) : (releaseBus s).ticks = s.ticks := rfl

/-! ## setErrorFlag -/

@[simp] theorem setErrorFlag_cfg (e : ErrorKind) (s : State) : (setErrorFlag e s).cfg = s.cfg := by cases e <;> rfl
@[simp] theorem setErrorFlag_par (e : ErrorKind) (s : State) : (setErrorFlag e s).par = s.par := by cases e <;> rfl
@[simp] theorem setErrorFlag_blMask (e : ErrorKind) (s : State) : (setErrorFlag e s).blMask = s.blMask := by cases e <;> rfl
@[simp] theorem setErrorFlag_busOpen (e : ErrorKind) (s : State) : (setErrorFlag e s).busOpen = s.busOpen := by cases e <;> rfl
@[simp] theorem setErrorFlag_initState (e : ErrorKind) (s : State) : (setErrorFlag e s).initState = s.initState := by cases e <;> rfl
@[simp] theorem setErrorFlag_errcnt (e : ErrorKind) (s : State) : (setErrorFlag e s).errcnt = s.errcnt := by cases e <;> rfl
@[simp] theorem setErrorFlag_fNotReadyUse (e : ErrorKind) (s : State) : (setErrorFlag e s).fNotReadyUse = s.fNotReadyUse := by cases e <;> rfl
@[simp] theorem setErrorFlag_fFrameDropped (e : ErrorKind) (s : State) : (setErrorFlag e s).fFrameDropped = s.fFrameDropped := by cases e <;> rfl
@[simp] theorem setErrorFlag_cursorType (e : ErrorKind) (s : State) : (setErrorFlag e s).cursorType = s.cursorType := by cases e <;> rfl
@[simp] theorem setErrorFlag_ctValid (e : ErrorKind) (s : State) : (setErrorFlag e s).ctValid = s.ctValid := by cases e <;> rfl
@[simp] theorem setErrorFlag_entryMode (e : ErrorKind) (s : State) : (setErrorFlag e s).entryMode = s.entryMode := by cases e <;> rfl
@[simp] theorem setErrorFlag_emValid (e : ErrorKind) (s : State) : (setErrorFlag e s).emValid = s.emValid := by cases e <;> rfl
@[simp] theorem setErrorFlag_lastResp (e : ErrorKind) (s : State) : (setErrorFlag e s).lastResp = s.lastResp := by cases e <;> rfl
@[simp] theorem setErrorFlag_busy (e : ErrorKind) (s : State) : (setErrorFlag e s).busy = s.busy := by cases e <;> rfl
@[simp] theorem setErrorFlag_seq (e : ErrorKind) (s : State) : (setErrorFlag e s).seq = s.seq := by cases e <;> rfl
@[simp] theorem setErrorFlag_trace (e : ErrorKind) (s : State) : (setErrorFlag e s).trace = s.trace := by cases e <;> rfl
@[simp] theorem setErrorFlag_requests (e : ErrorKind) (s : State) : (setErrorFlag e s).requests = s.requests := by cases e <;> rfl
@[simp] theorem setErrorFlag_payload (e : ErrorKind) (s : State) : (setErrorFlag e s).payload = s.payload := by cases e <;> rfl
@[simp] theorem setErrorFlag_statuses (e : ErrorKind) (s : State) : (setErrorFlag e s).statuses = s.statuses := by cases e <;> rfl
@[simp] theorem setErrorFlag_claims (e : ErrorKind) (s : State) : (setErrorFlag e s).claims = s.claims := by cases e <;> rfl
@[simp] theorem setErrorFlag_ticks (e : ErrorKind) (s : State) : (setErrorFlag e s).ticks = s.ticks := by cases e <;> rfl

/-! ## raiseError -/

@[simp] theorem raiseError_cfg (e : ErrorKind) (i : Half) (s : State) : (raiseError e i s).cfg = s.cfg := by cases e <;> simp [raiseError, errorLog]
@[simp] theorem raiseError_par (e : ErrorKind) (i : Half) (s : State) : (raiseError e i s).par = s.par := by cases e <;> simp [raiseError, errorLog]
@[simp] theorem raiseError_blMask (e : ErrorKind) (i : Half) (s : State) : (raiseError e i s).blMask = s.blMask := by cases e <;> simp [raiseError, errorLog]
@[simp] theorem raiseError_busOpen (e : ErrorKind) (i : Half) (s : State) : (raiseError e i s).busOpen = s.busOpen := by cases e <;> simp [raiseError, errorLog]
@[simp] theorem raiseError_initState (e : ErrorKind) (i : Half) (s : State) : (raiseError e i s).initState = s.initState := by cases e <;> simp [raiseError, errorLog]
@[simp] theorem raiseError_errcnt (e : ErrorKind) (i : Half) (s : State) : (raiseError e i s).errcnt = s.errcnt := by cases e <;> simp [raiseError, errorLog]
@[simp] theorem raiseError_fNotReadyUse (e : ErrorKind) (i : Half) (s : State) : (raiseError e i s).fNotReadyUse = s.fNotReadyUse := by cases e <;> simp [raiseError, errorLog]
@[simp] theorem raiseError_fFrameDropped (e : ErrorKind) (i : Half) (s : State) : (raiseError e i s).fFrameDropped = s.fFrameDropped := by cases e <;> simp [raiseError, errorLog]
@[simp] theorem raiseError_cursorType (e : ErrorKind) (i : Half) (s : State) : (raiseError e i s).cursorType = s.cursorType := by cases e <;> simp [raiseError, errorLog]
@[simp] theorem raiseError_ctValid (e : ErrorKind) (i : Half) (s : State) : (raiseError e i s).ctValid = s.ctValid := by cases e <;> simp [raiseError, errorLog]
@[simp] theorem raiseError_entryMode (e : ErrorKind) (i : Half) (s : State) : (raiseError e i s).entryMode = s.entryMode := by cases e <;> simp [raiseError, errorLog]
@[simp] theorem raiseError_emValid (e : ErrorKind) (i : Half) (s : State) : (raiseError e i s).emValid = s.emValid := by cases e <;> simp [raiseError, errorLog]
@[simp] theorem raiseError_lastResp (e : ErrorKind) (i : Half) (s : State) : (raiseError e i s).lastResp = s.lastResp := by cases e <;> simp [raiseError, errorLog]
@[simp] theorem raiseError_busy (e : ErrorKind) (i : Half) (s : State) : (raiseError e i s).busy = s.busy := by cases e <;> simp [raiseError, errorLog]
@[simp] theorem raiseError_seq (e : ErrorKind) (i : Half) (s : State) : (raiseError e i s).seq = { s.seq with raised := some e } := by cases e <;> simp [raiseError, errorLog]
@[simp] theorem raiseError_requests (e : ErrorKind) (i : Half) (s : State) : (raiseError e i s).requests = s.requests := by cases e <;> simp [raiseError, errorLog]
@[simp] theorem raiseError_payload (e : ErrorKind) (i : Half) (s : State) : (raiseError e i s).payload = s.payload := by cases e <;> simp [raiseError, errorLog]
@[simp] theorem raiseError_statuses (e : ErrorKind) (i : Half) (s : State) : (raiseError e i s).statuses = s.statuses := by cases e <;> simp [raiseError, errorLog]
@[simp] theorem raiseError_claims (e : ErrorKind) (i : Half) (s : State) : (raiseError e i s).claims = s.claims := by cases e <;> simp [raiseError, errorLog]
@[simp] theorem raiseError_ticks (e : ErrorKind) (i : Half) (s : State) : (raiseError e i s).ticks = s.ticks := by cases e <;> simp [raiseError, errorLog]
/-! Of the error flags, a raise sets its own and no other (60_exceptions.md R203). -/
@[simp] theorem raiseError_fBusUnavailable (e : ErrorKind) (i : Half) (s : State) :
    (raiseError e i s).fBusUnavailable = (s.fBusUnavailable || e == .busUnavailable) := by
  cases e <;> simp [raiseError, errorLog, setErrorFlag]
@[simp] theorem raiseError_fIllegalRequest (e : ErrorKind) (i : Half) (s : State) :
    (raiseError e i s).fIllegalRequest = (s.fIllegalRequest || e == .illegalRequest) := by
  cases e <;> simp [raiseError, errorLog, setErrorFlag]
@[simp] theorem raiseError_fBusNotOpen (e : ErrorKind) (i : Half) (s : State) :
    (raiseError e i s).fBusNotOpen = (s.fBusNotOpen || e == .busNotOpen) := by
  cases e <;> simp [raiseError, errorLog, setErrorFlag]
@[simp] theorem raiseError_wInvalidGeometry (e : ErrorKind) (i : Half) (s : State) :
    (raiseError e i s).wInvalidGeometry = (s.wInvalidGeometry || e == .invalidGeometry) := by
  cases e <;> simp [raiseError, errorLog, setErrorFlag]
@[simp] theorem raiseError_wInvalidSlot (e : ErrorKind) (i : Half) (s : State) :
    (raiseError e i s).wInvalidSlot = (s.wInvalidSlot || e == .invalidSlot) := by
  cases e <;> simp [raiseError, errorLog, setErrorFlag]

/-! ## The traces of the updates that may log -/

theorem logEvent_trace (k : LogKind) (i : Half) (s : State) :
    (logEvent k i s).trace = s.trace ++ (if s.cfg.debug then [.log k i] else []) := by
  unfold logEvent; split <;> simp

theorem dropFrame_trace (st : Byte) (s : State) :
    (dropFrame st s).trace = s.trace ++ (if s.cfg.debug then [.log .frameDropped (st.setWidth 16)] else []) := by
  simp [dropFrame, logEvent_trace]

theorem raiseError_trace (e : ErrorKind) (i : Half) (s : State) :
    (raiseError e i s).trace = s.trace ++ (match errorLog e with
      | some k => if s.cfg.debug then [.log k i] else []
      | none => []) := by
  cases e <;> simp [raiseError, errorLog, logEvent_trace]

/-- A LOG as one record update. -/
theorem logEvent_eq (k : LogKind) (i : Half) (s : State) :
    logEvent k i s = { s with trace := s.trace ++ (if s.cfg.debug then [.log k i] else []) } := by
  unfold logEvent emit; split <;> simp_all

end Sys2Proof.Machine
end

