-- ==== Sys2Proof/Laws/Run.lean ====
section
/-! SUPPORT. What the shared operations can do, said once: their equations on delivered frames, and the closure of updates
that any run of primitives stays in. -/

namespace Sys2Proof.Machine

/-! ## Equations -/

@[simp] theorem run_nil (s : State) : run [] s = complete s := rfl

theorem run_cons_done {p : Prim} {ps : List Prim} {s t : State} (h : runPrim p s = .done t) :
    run (p :: ps) s = run ps t := by simp [run, h]

theorem run_cons_blocked {p : Prim} {ps : List Prim} {s t : State} (h : runPrim p s = .blocked t) :
    run (p :: ps) s = { t with seq := { t.seq with todo := ps } } := by simp [run, h]

theorem run_cons (p : Prim) (ps : List Prim) (s : State) : run (p :: ps) s = continueRun ps (runPrim p s) := by
  cases h : runPrim p s <;> simp [run, continueRun, h]

/-- A frame delivered at its first attempt. -/
theorem sendFrame_delivered {f : Frame} {s : State} {rest : List Byte} (h : s.statuses = 0#8 :: rest) :
    sendFrame f s = .done (answered f 0#8 rest s) := by simp [sendFrame, h, attempts]

theorem request_idle {p : Plan} {s : State} (h : s.busy = false) : request p s = .next (checked p (accept p.word s)) := by
  simp [request, h]

theorem request_busy {p : Plan} {s : State} (h : s.busy = true) : request p s = .next s := by simp [request, h]

/-! ## Updates: everything a run of primitives is made of -/

/-- One update of a run: frames sent satisfy `F`, and registers are written by primitives that satisfy `P`. -/
inductive Update (F : Frame → Prop) (P : Prim → Prop) : State → State → Prop where
  | deliver (s : State) (f : Frame) (rest : List Byte) : F f → Update F P s (answered f 0#8 rest s)
  | fail (s : State) (f : Frame) (st : Byte) (rest : List Byte) :
      F f → st ≠ 0#8 → Update F P s (countFailure (answered f st rest s))
  | log (s : State) (k : LogKind) (i : Half) : Update F P s (logEvent k i s)
  | delay (s : State) (d : Half) : Update F P s (emit (.delay d) s)
  | tick (s : State) (n : Nat) : Update F P s { s with ticks := n }
  | seq (s : State) (q : Seq) : q.word = s.seq.word → Update F P s { s with seq := q }
  | drop (s : State) (f : Frame) : F f → s.cfg.retryLimit ≠ 0#16 → Update F P s { s with fFrameDropped := true }
  | payload (s : State) (rest : List Byte) : Update F P s { s with payload := rest }
  | claim (s : State) (ok : Bool) (rest : List Bool) : P .claimBus →
      Update F P s (emit (.claim s.cfg.addr s.cfg.speed ok) { s with claims := rest })
  | opened (s : State) : P .claimBus → Update F P s { s with busOpen := true }
  | unavailable (s : State) : P .claimBus → Update F P s (setErrorFlag .busUnavailable s)
  | initState (s : State) (st : InitState) : P (.setInitState st) → Update F P s { s with initState := st }
  | cursorType (s : State) (ct : BitVec 2) : P (.setCursorType ct) →
      Update F P s { s with cursorType := ct, ctValid := true }
  | entryMode (s : State) (m : BitVec 2) : P (.setEntryMode m) → Update F P s { s with entryMode := m, emValid := true }
  | backlight (s : State) (on : Bool) : P (.setBacklight on) → Update F P s { s with blMask := blMaskOf on }
  | release (s : State) : P .releaseBus → Update F P s (releaseBus s)

/-- Any number of updates. -/
inductive Updates (F : Frame → Prop) (P : Prim → Prop) : State → State → Prop where
  | refl (s : State) : Updates F P s s
  | tail {s t u : State} : Updates F P s t → Update F P t u → Updates F P s u

theorem Updates.one {F : Frame → Prop} {P : Prim → Prop} {s t : State} (h : Update F P s t) : Updates F P s t :=
  .tail (.refl s) h

theorem Updates.trans {F : Frame → Prop} {P : Prim → Prop} {s t u : State} (h : Updates F P s t) (h' : Updates F P t u) :
    Updates F P s u := by
  induction h' with
  | refl => exact h
  | tail _ hu ih => exact .tail ih hu

/-- A relation that is reflexive, transitive and holds of each update holds of any number of them. -/
theorem Updates.induct {F : Frame → Prop} {P : Prim → Prop} {R : State → State → Prop} (hr : ∀ s, R s s)
    (ht : ∀ s t u, R s t → R t u → R s u) (hu : ∀ s t, Update F P s t → R s t) {s t : State} (h : Updates F P s t) : R s t := by
  induction h with
  | refl => exact hr _
  | tail _ h1 ih => exact ht _ _ _ ih (hu _ _ h1)

theorem Updates.mono {F : Frame → Prop} {P Q : Prim → Prop} (hPQ : ∀ p, P p → Q p) {s t : State} (h : Updates F P s t) :
    Updates F Q s t := by
  induction h with
  | refl => exact .refl _
  | tail _ hu ih =>
    refine .tail ih ?_
    cases hu with
    | deliver f rest hf => exact .deliver _ f rest hf
    | fail f st rest hf hst => exact .fail _ f st rest hf hst
    | log k i => exact .log _ k i
    | delay d => exact .delay _ d
    | tick n => exact .tick _ n
    | seq q hq => exact .seq _ q hq
    | drop f hf hl => exact .drop _ f hf hl
    | payload rest => exact .payload _ rest
    | claim ok rest hp => exact .claim _ ok rest (hPQ _ hp)
    | opened hp => exact .opened _ (hPQ _ hp)
    | unavailable hp => exact .unavailable _ (hPQ _ hp)
    | initState st hp => exact .initState _ st (hPQ _ hp)
    | cursorType ct hp => exact .cursorType _ ct (hPQ _ hp)
    | entryMode m hp => exact .entryMode _ m (hPQ _ hp)
    | backlight on hp => exact .backlight _ on (hPQ _ hp)
    | release hp => exact .release _ (hPQ _ hp)

/-- The state a primitive leaves, completed or waiting. -/
def Progress.state : Progress → State
  | .done t => t
  | .blocked t => t

/-- Where a primitive that waits leaves the sequencer. -/
def BlockedPhase : Prim → Phase → Prop
  | .sendCmd _, p => ∃ f, inFlight p = some f
  | .sendData _, p => ∃ f, inFlight p = some f
  | .sendPayload, p => p = .payloadSend ∨ ∃ f, inFlight p = some f
  | .dropPayload, p => p = .payloadDrop
  | .wait _, p => ∃ left, p = .waiting left
  | .claimBus, p => p = .claiming
  | .setInitState _, _ => False
  | .setCursorType _, _ => False
  | .setEntryMode _, _ => False
  | .setBacklight _, _ => False
  | .releaseBus, _ => False

section
variable {F : Frame → Prop} {P : Prim → Prop}

theorem setPhase_updates (p : Phase) (s : State) : Updates F P s (setPhase p s) := .one (.seq s _ rfl)

/-- What countTicks can do: it completes with the pulses counted, or leaves the sequencer at the phase it was given. -/
theorem countTicks_spec (left : Nat) (ph : Nat → Phase) (s : State) :
    Updates F P s (countTicks left ph s).state ∧
      ∀ t, countTicks left ph s = .blocked t → ∃ k, t.seq.phase = ph k := by
  unfold countTicks
  split
  · exact ⟨.one (.tick s _), by simp⟩
  · refine ⟨.tail (.one (.tick s 0)) (.seq _ _ rfl), ?_⟩
    rintro t ⟨⟩
    exact ⟨_, rfl⟩

theorem doWait_spec (d : Half) (ph : Nat → Phase) (s : State) :
    Updates F P s (doWait d ph s).state ∧ ∀ t, doWait d ph s = .blocked t → ∃ k, t.seq.phase = ph k := by
  unfold doWait
  split
  · exact ⟨.refl s, by simp⟩
  · have h := countTicks_spec (F := F) (P := P) (d.toNat + 1) ph (emit (.delay d) s)
    exact ⟨(Updates.one (.delay s d)).trans h.1, h.2⟩

theorem dropFrame_updates {f : Frame} (hf : F f) (st : Byte) (s : State) (hl : s.cfg.retryLimit ≠ 0#16) :
    Updates F P s (dropFrame st s) := by
  refine .tail (t := { s with fFrameDropped := true, seq := { s.seq with dropped := true } }) ?_ (.log _ _ _)
  exact .tail (.one (.drop s f hf hl)) (.seq _ { s.seq with dropped := true } rfl)

/-- What SendFrame's loop can do: only attempts of its own frame, logs, delays, counting, and a drop; where it waits, its
frame is in flight. -/
theorem attempts_spec {f : Frame} (hf : F f) (sts : List Byte) : ∀ (n : Half) (s : State),
    Updates F P s (attempts f sts n s).state ∧
      ∀ t, attempts f sts n s = .blocked t → inFlight t.seq.phase = some f := by
  induction sts with
  | nil =>
    intro n s
    refine ⟨setPhase_updates _ s, ?_⟩
    rintro t ⟨⟩
    rfl
  | cons st rest ih =>
    intro n s
    rw [attempts]
    split
    · next h => subst h; exact ⟨.one (.deliver s f rest hf), by simp⟩
    · next h0 =>
      have hfail : Updates F P s (countFailure (answered f st rest s)) := .one (.fail s f st rest hf h0)
      split
      · next hl => exact ⟨hfail.trans (dropFrame_updates hf _ _ hl.1), by simp⟩
      · have hw := doWait_spec (F := F) (P := P) s.cfg.retryDelayMs (.retryWait f (satInc16 n))
          (logEvent .retry (st ++ capByte (satInc16 n)) (countFailure (answered f st rest s)))
        have hl := hfail.trans (.one (.log _ .retry (st ++ capByte (satInc16 n))))
        split
        · next t ht =>
          rw [ht] at hw
          exact ⟨(hl.trans hw.1).trans (ih _ t).1, (ih _ t).2⟩
        · next t ht =>
          rw [ht] at hw
          refine ⟨hl.trans hw.1, ?_⟩
          rintro _ ⟨⟩
          obtain ⟨k, hk⟩ := hw.2 t rfl
          simp [hk, inFlight]

theorem raiseUnavailable_updates (hp : P .claimBus) (i : Half) (s : State) :
    Updates F P s (raiseError .busUnavailable i s) :=
  ((Updates.one (.unavailable s hp)).tail (.log _ .busUnavailable i)).tail
    (.seq _ { (logEvent _ i _).seq with raised := some _ } rfl)

theorem claimBus_spec (hp : P .claimBus) (s : State) :
    Updates F P s (claimBus s).state ∧ ∀ t, claimBus s = .blocked t → t.seq.phase = .claiming := by
  unfold claimBus
  split
  · refine ⟨setPhase_updates _ s, ?_⟩
    rintro t ⟨⟩
    rfl
  · next ok rest _ =>
    have hc := Updates.one (F := F) (.claim s ok rest hp)
    dsimp only
    split
    · exact ⟨hc.tail (.opened _ hp), by simp⟩
    · refine ⟨?_, by simp⟩
      exact hc.trans (raiseUnavailable_updates hp (s.cfg.addr.setWidth 16) _)

/-- What one primitive can do. Where it sends, `F` holds of every frame the encoder builds from the state's mask. -/
theorem runPrim_spec (p : Prim) (hp : P p) (s : State)
    (hF : sendsFrame p = true → ∀ b rs, F (encodeByte b rs s.blMask)) :
    Updates F P s (runPrim p s).state ∧
      ∀ t, runPrim p s = .blocked t → BlockedPhase p t.seq.phase ∧
        ∀ f, inFlight t.seq.phase = some f → F f := by
  have hsend : ∀ (f : Frame) (s : State), F f → Updates F P s (sendFrame f s).state ∧
      ∀ t, sendFrame f s = .blocked t → inFlight t.seq.phase = some f := fun f s hf => attempts_spec hf _ _ _
  cases p with
  | sendCmd b =>
    have h := hsend (encodeByte b false s.blMask) s (hF rfl _ _)
    refine ⟨h.1, fun t ht => ?_⟩
    have := h.2 t ht
    exact ⟨⟨_, this⟩, fun f hf => by rw [this] at hf; cases hf; exact hF rfl _ _⟩
  | sendData b =>
    have h := hsend (encodeByte b true s.blMask) s (hF rfl _ _)
    refine ⟨h.1, fun t ht => ?_⟩
    have := h.2 t ht
    exact ⟨⟨_, this⟩, fun f hf => by rw [this] at hf; cases hf; exact hF rfl _ _⟩
  | sendPayload =>
    simp only [runPrim, sendNextPayload]
    split
    · refine ⟨setPhase_updates _ s, ?_⟩
      rintro t ⟨⟩
      exact ⟨.inl rfl, fun f hf => by simp [setPhase, inFlight] at hf⟩
    · next b rest _ =>
      have h := hsend (encodeByte b true s.blMask) { s with payload := rest } (hF rfl _ _)
      refine ⟨(Updates.one (.payload s rest)).trans h.1, fun t ht => ?_⟩
      have := h.2 t ht
      exact ⟨.inr ⟨_, this⟩, fun f hf => by rw [this] at hf; cases hf; exact hF rfl _ _⟩
  | dropPayload =>
    simp only [runPrim, dropNextPayload]
    split
    · refine ⟨setPhase_updates _ s, ?_⟩
      rintro t ⟨⟩
      exact ⟨rfl, fun f hf => by simp [setPhase, inFlight] at hf⟩
    · exact ⟨.one (.payload s _), by simp⟩
  | wait d =>
    have h := doWait_spec (F := F) (P := P) d .waiting s
    refine ⟨h.1, fun t ht => ?_⟩
    obtain ⟨k, hk⟩ := h.2 t ht
    exact ⟨⟨k, hk⟩, fun f hf => by simp [hk, inFlight] at hf⟩
  | setInitState st => exact ⟨.one (.initState s st hp), by simp [runPrim]⟩
  | setCursorType ct => exact ⟨.one (.cursorType s ct hp), by simp [runPrim]⟩
  | setEntryMode m => exact ⟨.one (.entryMode s m hp), by simp [runPrim]⟩
  | setBacklight on => exact ⟨.one (.backlight s on hp), by simp [runPrim]⟩
  | claimBus =>
    have h := claimBus_spec (F := F) hp s
    refine ⟨h.1, fun t ht => ?_⟩
    have := h.2 t ht
    exact ⟨this, fun f hf => by simp [this, inFlight] at hf⟩
  | releaseBus => exact ⟨.one (.release s hp), by simp [runPrim]⟩

/-- An update leaves the mask as it was or sets it to a legal one. -/
theorem Update.blMask {s t : State} (h : Update F P s t) : t.blMask = s.blMask ∨ ∃ on, t.blMask = blMaskOf on := by
  cases h <;> first | exact .inl rfl | exact .inr ⟨_, rfl⟩ | simp

theorem Updates.blMask {s t : State} (h : Updates F P s t) : t.blMask = s.blMask ∨ ∃ on, t.blMask = blMaskOf on := by
  induction h with
  | refl => exact .inl rfl
  | tail _ hu ih =>
    rcases hu.blMask with h' | h'
    · rw [h']; exact ih
    · exact .inr h'

/-- Of every primitive that `P` allows and that sends, `F` holds of the frames the encoder builds from the mask `m`. -/
def FramesOk (F : Frame → Prop) (P : Prim → Prop) (m : Byte) : Prop :=
  ∀ p, P p → sendsFrame p = true → ∀ b rs, F (encodeByte b rs m)

theorem FramesOk.updates (hF : ∀ on, FramesOk F P (blMaskOf on)) {s t : State} (hm : FramesOk F P s.blMask)
    (h : Updates F P s t) : FramesOk F P t.blMask := by
  rcases h.blMask with h' | ⟨on, h'⟩ <;> rw [h']
  · exact hm
  · exact hF on

/-- What a run of primitives can do: after updates it completes the request, or it waits at one of the primitives, with the
primitives after that one left to run. -/
theorem run_spec (hF : ∀ on, FramesOk F P (blMaskOf on)) (ps : List Prim) : ∀ (s : State),
    (∀ p ∈ ps, P p) → FramesOk F P s.blMask →
    (∃ u, Updates F P s u ∧ run ps s = complete u) ∨
    (∃ u p before after, ps = before ++ p :: after ∧ Updates F P s u ∧ BlockedPhase p u.seq.phase
      ∧ (∀ f, inFlight u.seq.phase = some f → F f) ∧ run ps s = { u with seq := { u.seq with todo := after } }) := by
  induction ps with
  | nil => exact fun s _ _ => .inl ⟨s, .refl s, rfl⟩
  | cons p ps ih =>
    intro s hP hm
    have hp := runPrim_spec p (hP p (by simp)) s (hm p (hP p (by simp)))
    cases h : runPrim p s with
    | blocked t =>
      rw [h] at hp
      exact .inr ⟨t, p, [], ps, rfl, hp.1, (hp.2 t rfl).1, (hp.2 t rfl).2, run_cons_blocked h⟩
    | done t =>
      rw [h] at hp
      have hm' : FramesOk F P t.blMask := .updates hF hm hp.1
      rw [run_cons_done h]
      rcases ih t (fun q hq => hP q (by simp [hq])) hm' with ⟨u, hu, he⟩ | ⟨u, q, bef, aft, hps, hu, hb, hf, he⟩
      · exact .inl ⟨u, hp.1.trans hu, he⟩
      · exact .inr ⟨u, q, p :: bef, aft, by simp [hps], hp.1.trans hu, hb, hf, he⟩

end

end Sys2Proof.Machine
end

