-- ==== Sys2Proof/Laws/Step.lean ====
section
/-! SUPPORT. What a request and a step can do, said once in the terms of Laws/Run.lean. -/

namespace Sys2Proof.Machine

section
variable {F : Frame → Prop} {P : Prim → Prop}

/-- How a run that starts at `s` with primitives `ps` to run ends: the request completes, or it waits at one of them. -/
def Advances (F : Frame → Prop) (P : Prim → Prop) (ps : List Prim) (s t : State) : Prop :=
  (∃ u, Updates F P s u ∧ t = complete u) ∨
  ∃ u p before after, ps = before ++ p :: after ∧ Updates F P s u ∧ BlockedPhase p u.seq.phase
    ∧ (∀ f, inFlight u.seq.phase = some f → F f) ∧ t = { u with seq := { u.seq with todo := after } }

theorem run_advances (hF : ∀ on, FramesOk F P (blMaskOf on)) {ps : List Prim} {s : State}
    (hP : ∀ p ∈ ps, P p) (hm : FramesOk F P s.blMask) : Advances F P ps s (run ps s) :=
  run_spec hF ps s hP hm

theorem Advances.after {ps : List Prim} {s s' t : State} (h : Updates F P s s') (h' : Advances F P ps s' t) :
    Advances F P ps s t := by
  rcases h' with ⟨u, hu, he⟩ | ⟨u, p, bef, aft, hps, hu, hb, hf, he⟩
  · exact .inl ⟨u, h.trans hu, he⟩
  · exact .inr ⟨u, p, bef, aft, hps, h.trans hu, hb, hf, he⟩

/-! ## A request -/

/-- The primitives a plan runs: its body, or the discarding of its payload. -/
def planPrims (p : Plan) (s : State) : List Prim :=
  if p.illegal = false ∧ p.range = none ∧ (wouldSend p = true → s.busOpen = true) then p.body
  else List.replicate (payloadLen p.word) .dropPayload

/-- What the checks of 60_exceptions.md R202 do to an accepted request before its primitives run: one raises, or all pass
and the readiness mark is set where it is due. -/
inductive Starts (p : Plan) (s : State) : State → Prop where
  | illegal : p.illegal = true → Starts p s (raiseError .illegalRequest (wordInfo p.word) s)
  | range (e : ErrorKind) (info : Half) : p.illegal = false → p.range = some (e, info) → Starts p s (raiseError e info s)
  | closed : p.illegal = false → p.range = none → wouldSend p = true → s.busOpen = false →
      Starts p s (raiseError .busNotOpen ((reqOpc p.word).setWidth 16) s)
  | passes : p.illegal = false → p.range = none → (wouldSend p = true → s.busOpen = true) →
      Starts p s (if wouldSend p && !p.isInit then markNotReady s else s)

/-- What an accepted request does: the checks, then its primitives. -/
theorem checked_starts (p : Plan) (s : State) : ∃ t, Starts p s t ∧ checked p s = run (planPrims p s) t := by
  cases hi : p.illegal with
  | true => exact ⟨_, .illegal hi, by simp [checked, planPrims, hi, endWith]⟩
  | false =>
    cases hr : p.range with
    | some r => exact ⟨_, .range r.1 r.2 hi hr, by simp [checked, planPrims, hi, hr, endWith]⟩
    | none =>
      by_cases hb : wouldSend p = true ∧ s.busOpen = false
      · exact ⟨_, .closed hi hr hb.1 hb.2, by simp [checked, planPrims, hi, hr, hb.1, hb.2, endWith]⟩
      · have hb' : wouldSend p = true → s.busOpen = true := by simpa using hb
        refine ⟨_, .passes hi hr hb', ?_⟩
        have : (wouldSend p && !s.busOpen) = false := by cases hw : wouldSend p <;> simp_all
        rw [show planPrims p s = p.body from if_pos ⟨hi, hr, hb'⟩]
        simp [checked, hi, hr, this, runBody]

/-- What the checks leave as it was: everything but the five flags they set, the trace, which a LOG may extend, and the
error they raise. -/
theorem Starts.frame {p : Plan} {s t : State} (h : Starts p s t) :
    (∃ logs, t.trace = s.trace ++ logs ∧ ∀ e ∈ logs, isLog e = true) ∧
    ∃ r, t = { s with trace := t.trace, seq := { s.seq with raised := r }, fIllegalRequest := t.fIllegalRequest
                      fBusNotOpen := t.fBusNotOpen, fBusUnavailable := t.fBusUnavailable, fNotReadyUse := t.fNotReadyUse
                      wInvalidGeometry := t.wInvalidGeometry, wInvalidSlot := t.wInvalidSlot } := by
  have hraise : ∀ e info, (∃ logs, (raiseError e info s).trace = s.trace ++ logs ∧ ∀ x ∈ logs, isLog x = true) ∧
      ∃ r, raiseError e info s = { s with
        trace := (raiseError e info s).trace, seq := { s.seq with raised := r }
        fIllegalRequest := (raiseError e info s).fIllegalRequest, fBusNotOpen := (raiseError e info s).fBusNotOpen
        fBusUnavailable := (raiseError e info s).fBusUnavailable, fNotReadyUse := (raiseError e info s).fNotReadyUse
        wInvalidGeometry := (raiseError e info s).wInvalidGeometry, wInvalidSlot := (raiseError e info s).wInvalidSlot } := by
    intro e info
    refine ⟨⟨_, raiseError_trace e info s, ?_⟩, some e, ?_⟩
    · cases e <;> cases s.cfg.debug <;> simp [errorLog, isLog]
    · cases e <;> cases hd : s.cfg.debug <;> simp [raiseError, errorLog, setErrorFlag, logEvent, hd, emit]
  cases h with
  | illegal => exact hraise _ _
  | range e info => exact hraise _ _
  | closed => exact hraise _ _
  | passes =>
    refine ⟨⟨[], ?_, by simp⟩, s.seq.raised, ?_⟩
    · split <;> simp
    · split <;> simp [markNotReady]

/-! ## The plans of the requests -/

/-- What is true of the plan `p` of the request `i` in the state `s`. -/
structure PlanOf (i : Instr) (s : State) (p : Plan) : Prop where
  /-- Its word is the request's. -/
  word : p.word = encode i
  /-- Its primitives are ones the request may run. -/
  runs : ∀ q ∈ p.body, mayRun (reqOpc p.word) q = true
  /-- It sends no frame after a release. -/
  order : framesBeforeRelease p.body = true
  /-- It claims the bus only in OPEN, which does nothing else and is illegal while the bus is open. -/
  claim : .claimBus ∈ p.body → p.body = [.claimBus] ∧ p.illegal = s.busOpen
  /-- Check 1 fails on an enumeration operand out of range, and on OPEN while the bus is open. -/
  illegal : p.illegal = true ↔ i.wellFormed = false ∨ (i = .openBus ∧ s.busOpen = true)
  /-- Check 2. -/
  range : p.range = none ↔ PassesRange i s.cfg
  /-- Check 2 raises InvalidSlot for the glyph requests and InvalidGeometry for the ones that address rows. -/
  rangeError : ∀ e info, p.range = some (e, info) →
    (e = .invalidSlot ∧ reqOpc p.word ∈ [0x0E#8, 0x0F#8])
    ∨ (e = .invalidGeometry ∧ reqOpc p.word ∈ [0x05#8, 0x08#8, 0x12#8])
  /-- Whether it would send a frame, if it passes check 2. -/
  sends : PassesRange i s.cfg → wouldSend p = wouldSendFrame i
  /-- Whether it is INIT. -/
  init : p.isInit = true ↔ ∃ ct, i = .init ct
  /-- INIT's primitives are the seven steps. -/
  initRuns : ∀ ct, i = .init ct → p.body = initBody s.par (enum2 ct)

theorem rowAddressable_iff (cols row : Byte) : rowAddressable cols row = true ↔ RowReachable cols row := by
  simp [rowAddressable, RowReachable, or_assoc]

/-- A reachable row has an address, whatever the column. -/
theorem rowAddr_some {cols row : Byte} (h : RowReachable cols row) (col : Byte) : ∃ a, rowAddr? cols row col = some a := by
  rcases h with rfl | rfl | ⟨rfl | rfl, rfl | rfl⟩ <;> exact ⟨_, rfl⟩

theorem geometryOk_iff (c : Cfg) : geometryOk c = true ↔ GeometryValid c := by
  unfold geometryOk GeometryValid
  have : c.rows.toNat < 8 := c.rows.isLt
  generalize c.rows.toNat = n at *
  interval_cases n <;> simp [List.range_succ, List.range_zero, rowAddressable]

/-- What one row's clearing runs: one command, then data. -/
theorem mem_clearRow {cols row : Byte} {q : Prim} (h : q ∈ clearRow cols row) :
    (∃ b, q = .sendCmd b) ∨ ∃ b, q = .sendData b := by
  unfold clearRow at h
  split at h
  · simp only [List.mem_cons, List.mem_replicate] at h
    rcases h with rfl | ⟨_, rfl⟩ <;> simp
  · simp at h

theorem clearRow_sends {cols row : Byte} (h : RowReachable cols row) : (clearRow cols row).any sendsFrame = true := by
  obtain ⟨a, ha⟩ := rowAddr_some h 0#8
  simp [clearRow, ha, sendsFrame]

theorem clearScreen_sends {c : Cfg} (h : GeometryValid c) (o : RowOrder) :
    ((rowsInOrder o c.rows.toNat).flatMap (clearRow c.cols)).any sendsFrame = true := by
  have h1 : 1#8 ∈ rowsInOrder o c.rows.toNat := by
    obtain ⟨h1, h2, -⟩ := h
    generalize c.rows.toNat = n at *
    interval_cases n <;> cases o <;> simp [rowsInOrder, List.range_succ, List.range_zero]
  obtain ⟨q, hq, hs⟩ := List.any_eq_true.1 (clearRow_sends (cols := c.cols) (row := 1#8) (.inl rfl))
  exact List.any_eq_true.2 ⟨q, List.mem_flatMap.2 ⟨_, h1, hq⟩, hs⟩

theorem slotCheck_none (slot : Byte) : slotCheck slot = none ↔ slot.toNat < 8 := by
  unfold slotCheck cgramSlots
  split <;> simp_all

theorem framesBeforeRelease_of_none {ps : List Prim} (h : ∀ q ∈ ps, q ≠ .releaseBus) : framesBeforeRelease ps = true := by
  induction ps with
  | nil => rfl
  | cons p ps ih =>
    simp only [framesBeforeRelease, Bool.and_eq_true, Bool.or_eq_true]
    exact ⟨.inl (by simpa using h p (by simp)), ih fun q hq => h q (by simp [hq])⟩

/-- The meaning of every request is one plan, of which PlanOf says what is true. -/
theorem exec_request (i : Instr) (s : State) : ∃ p : Plan, exec i s = request p s ∧ PlanOf i s p := by
  cases i with
  | openBus =>
    exact ⟨_, rfl, { word := rfl, runs := by simp [encode, mayRun], order := by simp [framesBeforeRelease], claim := by simp
                     illegal := by simp [Instr.wellFormed], range := by simp [PassesRange], rangeError := by simp
                     sends := by simp [wouldSend, wouldSendFrame, sendsFrame], init := by simp, initRuns := by simp }⟩
  | close =>
    refine ⟨_, rfl, { word := rfl, runs := ?_, order := ?_, claim := ?_, illegal := by simp [Instr.wellFormed]
                      range := by simp [PassesRange], rangeError := by simp, sends := fun _ => ?_, init := by simp, initRuns := by simp }⟩ <;>
      dsimp only [wouldSend] <;> split <;> simp [encode, mayRun, framesBeforeRelease, wouldSendFrame, sendsFrame]
  | init ct =>
    exact ⟨_, rfl, { word := rfl, runs := by simp [encode, mayRun, maySend, initBody]
                     order := by simp [initBody, framesBeforeRelease], claim := by simp [initBody]
                     illegal := by simp, range := by simp [PassesRange], rangeError := by simp
                     sends := by simp [wouldSend, wouldSendFrame, initBody, sendsFrame], init := by simp, initRuns := by rintro _ ⟨⟩; rfl }⟩
  | resetScreen ct =>
    exact ⟨_, rfl, { word := rfl, runs := by simp [encode, mayRun, maySend, resetScreenBody]
                     order := by simp [resetScreenBody, framesBeforeRelease], claim := by simp [resetScreenBody]
                     illegal := by simp, range := by simp [PassesRange], rangeError := by simp
                     sends := by simp [wouldSend, wouldSendFrame, resetScreenBody, sendsFrame], init := by simp, initRuns := by simp }⟩
  | clearScreen =>
    refine ⟨_, rfl, { word := rfl, runs := ?_, order := framesBeforeRelease_of_none ?_, claim := ?_
                      illegal := by simp [Instr.wellFormed], range := by simp [PassesRange, ← geometryOk_iff]
                      rangeError := by simp +contextual [encode], sends := fun h => clearScreen_sends h _
                      init := by simp, initRuns := by simp }⟩ <;> dsimp only <;> simp only [List.mem_flatMap]
    · rintro q ⟨r, _, hq⟩
      rcases mem_clearRow hq with ⟨b, rfl⟩ | ⟨b, rfl⟩ <;> simp [encode, mayRun, maySend]
    · rintro q ⟨r, _, hq⟩
      rcases mem_clearRow hq with ⟨b, rfl⟩ | ⟨b, rfl⟩ <;> simp
    · rintro ⟨r, _, hq⟩
      rcases mem_clearRow hq with ⟨b, hb⟩ | ⟨b, hb⟩ <;> simp at hb
  | clearScreenCmd =>
    exact ⟨_, rfl, { word := rfl, runs := by simp [encode, mayRun, maySend], order := by simp [framesBeforeRelease]
                     claim := by simp, illegal := by simp [Instr.wellFormed], range := by simp [PassesRange]
                     rangeError := by simp, sends := by simp [wouldSend, wouldSendFrame, sendsFrame], init := by simp, initRuns := by simp }⟩
  | home =>
    exact ⟨_, rfl, { word := rfl, runs := by simp [encode, mayRun, maySend], order := by simp [framesBeforeRelease]
                     claim := by simp, illegal := by simp [Instr.wellFormed], range := by simp [PassesRange]
                     rangeError := by simp, sends := by simp [wouldSend, wouldSendFrame, sendsFrame], init := by simp, initRuns := by simp }⟩
  | goto row col =>
    refine ⟨_, rfl, { word := rfl, runs := ?_, order := framesBeforeRelease_of_none ?_, claim := ?_
                      illegal := by simp [Instr.wellFormed], range := by simp [PassesRange, rowAddressable_iff]
                      rangeError := by simp +contextual [encode], sends := fun h => ?_
                      init := by simp, initRuns := by simp }⟩
    · simp only [Option.mem_toList, Option.map_eq_some_iff]
      rintro q ⟨b, _, rfl⟩
      simp [encode, mayRun, maySend]
    · simp only [Option.mem_toList, Option.map_eq_some_iff]
      rintro q ⟨b, _, rfl⟩
      simp
    · simp only [Option.mem_toList, Option.map_eq_some_iff]
      rintro ⟨b, _, hb⟩
      simp at hb
    · obtain ⟨a, ha⟩ := rowAddr_some h col
      simp [wouldSend, wouldSendFrame, ha, sendsFrame]
  | sendChar ch =>
    exact ⟨_, rfl, { word := rfl, runs := by simp [encode, mayRun, maySend], order := by simp [framesBeforeRelease]
                     claim := by simp, illegal := by simp [Instr.wellFormed], range := by simp [PassesRange]
                     rangeError := by simp, sends := by simp [wouldSend, wouldSendFrame, sendsFrame], init := by simp, initRuns := by simp }⟩
  | sendString n =>
    refine ⟨_, rfl, { word := rfl, runs := ?_, order := framesBeforeRelease_of_none ?_, claim := by simp
                      illegal := by simp [Instr.wellFormed], range := by simp [PassesRange], rangeError := by simp
                      sends := fun _ => ?_, init := by simp, initRuns := by simp }⟩
    · intro q hq
      rw [List.eq_of_mem_replicate hq]
      simp [encode, mayRun, maySend]
    · intro q hq
      rw [List.eq_of_mem_replicate hq]
      simp
    · cases hn : n.toNat <;> simp [wouldSend, wouldSendFrame, hn, List.replicate_succ, sendsFrame]
  | moveCursor dir count =>
    refine ⟨_, rfl, { word := rfl, runs := ?_, order := framesBeforeRelease_of_none ?_, claim := by simp
                      illegal := by simp, range := by simp [PassesRange], rangeError := by simp
                      sends := fun _ => ?_, init := by simp, initRuns := by simp }⟩
    · intro q hq
      rw [List.eq_of_mem_replicate hq]
      simp [encode, mayRun, maySend]
    · intro q hq
      rw [List.eq_of_mem_replicate hq]
      simp
    · cases hn : count.toNat <;> simp [wouldSend, wouldSendFrame, hn, List.replicate_succ, sendsFrame]
  | scroll dir count =>
    refine ⟨_, rfl, { word := rfl, runs := ?_, order := framesBeforeRelease_of_none ?_, claim := by simp
                      illegal := by simp, range := by simp [PassesRange], rangeError := by simp
                      sends := fun _ => ?_, init := by simp, initRuns := by simp }⟩
    · intro q hq
      rw [List.eq_of_mem_replicate hq]
      simp [encode, mayRun, maySend]
    · intro q hq
      rw [List.eq_of_mem_replicate hq]
      simp
    · cases hn : count.toNat <;> simp [wouldSend, wouldSendFrame, hn, List.replicate_succ, sendsFrame]
  | changeEntryMode mode =>
    exact ⟨_, rfl, { word := rfl, runs := by simp [encode, mayRun, maySend], order := by simp [framesBeforeRelease]
                     claim := by simp, illegal := by simp, range := by simp [PassesRange]
                     rangeError := by simp, sends := by simp [wouldSend, wouldSendFrame, sendsFrame], init := by simp, initRuns := by simp }⟩
  | createCustomChar slot =>
    refine ⟨_, rfl, { word := rfl, runs := ?_, order := framesBeforeRelease_of_none ?_, claim := ?_
                      illegal := by simp [Instr.wellFormed], range := slotCheck_none slot
                      rangeError := by simp +contextual [encode, slotCheck]
                      sends := by simp [wouldSend, wouldSendFrame, sendsFrame], init := by simp, initRuns := by simp }⟩ <;>
      dsimp only <;> simp only [List.mem_cons, List.mem_replicate]
    · rintro q (rfl | ⟨_, rfl⟩) <;> simp [encode, mayRun, maySend]
    · rintro q (rfl | ⟨_, rfl⟩) <;> simp
    · simp
  | printCustomChar slot =>
    exact ⟨_, rfl, { word := rfl, runs := by simp [encode, mayRun, maySend], order := by simp [framesBeforeRelease]
                     claim := by simp, illegal := by simp [Instr.wellFormed]
                     range := slotCheck_none slot
                     rangeError := by simp +contextual [encode, slotCheck]
                     sends := by simp [wouldSend, wouldSendFrame, sendsFrame], init := by simp, initRuns := by simp }⟩
  | backlightSet on =>
    exact ⟨_, rfl, { word := rfl, runs := by simp [encode, mayRun], order := by simp [framesBeforeRelease]
                     claim := by simp, illegal := by simp, range := by simp [PassesRange]
                     rangeError := by simp, sends := by simp [wouldSend, wouldSendFrame, sendsFrame], init := by simp, initRuns := by simp }⟩
  | displayOn on =>
    exact ⟨_, rfl, { word := rfl, runs := by simp [encode, mayRun, maySend], order := by simp [framesBeforeRelease]
                     claim := by simp, illegal := by simp, range := by simp [PassesRange]
                     rangeError := by simp, sends := by simp [wouldSend, wouldSendFrame, sendsFrame], init := by simp, initRuns := by simp }⟩
  | clearLine row =>
    refine ⟨_, rfl, { word := rfl, runs := ?_, order := framesBeforeRelease_of_none ?_, claim := ?_
                      illegal := by simp [Instr.wellFormed], range := by simp [PassesRange, rowAddressable_iff]
                      rangeError := by simp +contextual [encode], sends := fun h => clearRow_sends h
                      init := by simp, initRuns := by simp }⟩
    · intro q hq
      rcases mem_clearRow hq with ⟨b, rfl⟩ | ⟨b, rfl⟩ <;> simp [encode, mayRun, maySend]
    · intro q hq
      rcases mem_clearRow hq with ⟨b, rfl⟩ | ⟨b, rfl⟩ <;> simp
    · intro hq
      rcases mem_clearRow hq with ⟨b, hb⟩ | ⟨b, hb⟩ <;> simp at hb
  | shutdown =>
    exact ⟨_, rfl, { word := rfl, runs := by simp [encode, mayRun, maySend]
                     order := by simp [framesBeforeRelease, sendsFrame]
                     claim := by simp, illegal := by simp [Instr.wellFormed], range := by simp [PassesRange]
                     rangeError := by simp, sends := by simp [wouldSend, wouldSendFrame, sendsFrame], init := by simp, initRuns := by simp }⟩
  | sendCmd c =>
    exact ⟨_, rfl, { word := rfl, runs := by simp [encode, mayRun, maySend], order := by simp [framesBeforeRelease]
                     claim := by simp, illegal := by simp [Instr.wellFormed], range := by simp [PassesRange]
                     rangeError := by simp, sends := by simp [wouldSend, wouldSendFrame, sendsFrame], init := by simp, initRuns := by simp }⟩

/-- The same for any word, legal or not: an illegal one has a plan that check 1 ends. -/
theorem runWord_request (w : ReqWord) (s : State) : ∃ p : Plan, runWord w s = request p s
    ∧ (∀ q ∈ p.body, mayRun (reqOpc p.word) q = true) ∧ framesBeforeRelease p.body = true
    ∧ (.claimBus ∈ p.body → p.body = [.claimBus] ∧ p.illegal = s.busOpen)
    ∧ ((∃ i, decode w = .ok i ∧ PlanOf i s p) ∨ ((∃ e, decode w = .error e) ∧ p.word = w ∧ p.illegal = true)) := by
  unfold runWord
  split
  · next i h =>
    obtain ⟨p, h1, h2⟩ := exec_request i s
    exact ⟨p, h1, h2.runs, h2.order, h2.claim, .inl ⟨i, h, h2⟩⟩
  · next e h => exact ⟨_, rfl, by simp, by simp [framesBeforeRelease], by simp, .inr ⟨⟨e, h⟩, rfl, rfl⟩⟩

/-! ## A step -/

theorem planPrims_all {p : Plan} {s : State} (hP : ∀ q ∈ p.body, P q) (hd : P .dropPayload) : ∀ q ∈ planPrims p s, P q := by
  intro q hq
  unfold planPrims at hq
  split at hq
  · exact hP q hq
  · rw [List.eq_of_mem_replicate hq]
    exact hd

/-- A step of an idle block that takes a request: acceptance, the checks, then a run. -/
theorem request_advances (hF : ∀ on, FramesOk F P (blMaskOf on)) {p : Plan} {s t : State}
    (hP : ∀ q ∈ p.body, P q) (hd : P .dropPayload) (hm : FramesOk F P s.blMask) (hb : s.busy = false)
    (h : request p s = .next t) :
    ∃ u, Starts p (accept p.word s) u ∧ Advances F P (planPrims p s) u t := by
  rw [request_idle hb] at h
  cases h
  obtain ⟨u, hu, he⟩ := checked_starts p (accept p.word s)
  obtain ⟨-, r, hr⟩ := hu.frame
  refine ⟨u, hu, ?_⟩
  rw [he]
  exact run_advances hF (planPrims_all hP hd) (by rw [hr]; exact hm)

theorem continueRun_advances (hF : ∀ on, FramesOk F P (blMaskOf on)) {p : Prim} {ps : List Prim} {s : State}
    {g : Progress} (hP : ∀ q ∈ ps, P q) (hm : FramesOk F P s.blMask) (hg : Updates F P s g.state)
    (hb : ∀ t, g = .blocked t → BlockedPhase p t.seq.phase ∧ ∀ f, inFlight t.seq.phase = some f → F f) :
    Advances F P (p :: ps) s (continueRun ps g) := by
  cases g with
  | blocked t => exact .inr ⟨t, p, [], ps, rfl, hg, (hb t rfl).1, (hb t rfl).2, rfl⟩
  | done t =>
    have hm' : FramesOk F P t.blMask := .updates hF hm hg
    rcases (run_advances hF hP hm').after hg with h | ⟨u, q, bef, aft, hps, hu, hb, hf, he⟩
    · exact .inl h
    · exact .inr ⟨u, q, p :: bef, aft, by simp [hps], hu, hb, hf, he⟩

/-- A primitive that the phase of a waiting request may belong to. -/
def phasePrim : Phase → Prim
  | .attempt _ _ => .sendCmd 0#8
  | .retryWait _ _ _ => .sendCmd 0#8
  | .waiting _ => .wait 0#16
  | .claiming => .claimBus
  | .payloadSend => .sendPayload
  | .payloadDrop => .dropPayload
  | .start => .wait 0#16

theorem retryAgain_spec {f : Frame} (hf : F f) (n : Half) (left : Nat) (s : State) :
    Updates F P s (retryAgain f n (countTicks left (.retryWait f n) s)).state ∧
      ∀ t, retryAgain f n (countTicks left (.retryWait f n) s) = .blocked t → inFlight t.seq.phase = some f := by
  have h := countTicks_spec (F := F) (P := P) left (.retryWait f n) s
  cases hc : countTicks left (.retryWait f n) s with
  | blocked t =>
    rw [hc] at h
    refine ⟨h.1, ?_⟩
    rintro _ ⟨⟩
    obtain ⟨k, hk⟩ := h.2 t rfl
    simp [hk, inFlight]
  | done t =>
    rw [hc] at h
    have h' := attempts_spec (F := F) (P := P) hf t.statuses n t
    exact ⟨h.1.trans h'.1, h'.2⟩

/-- A step of a request in progress: updates from its state, then it completes or waits again. -/
theorem resume_advances (hF : ∀ on, FramesOk F P (blMaskOf on)) {s t : State}
    (hP : ∀ q ∈ s.seq.todo, P q) (hc : s.seq.phase = .claiming → P .claimBus)
    (hm : FramesOk F P s.blMask) (hf : ∀ f, inFlight s.seq.phase = some f → F f)
    (hs : s.seq.phase = .payloadSend → P .sendPayload)
    (h : resume s = .next t) : Advances F P (phasePrim s.seq.phase :: s.seq.todo) s t := by
  have h0 : Updates F P s (setPhase .start s) := setPhase_updates _ s
  have hm0 : FramesOk F P (setPhase .start s).blMask := by simpa using hm
  unfold resume at h
  dsimp only at h
  split at h
  · next hp =>
    cases h
    rcases (run_advances hF hP hm0).after h0 with h | ⟨u, q, bef, aft, hps, hu, hb, hf, he⟩
    · exact .inl h
    · exact .inr ⟨u, q, _ :: bef, aft, by rw [hps]; rfl, hu, hb, hf, he⟩
  · next f n hp =>
    split at h
    · cases h
    · cases h
      have ha := attempts_spec (F := F) (P := P) (hf f (by simp [hp, inFlight])) s.statuses n (setPhase .start s)
      refine (continueRun_advances hF hP hm0 ha.1 fun t ht => ?_).after h0
      have := ha.2 t ht
      exact ⟨by simp [hp, phasePrim, BlockedPhase, this], fun f' hf' => by
        rw [this] at hf'; cases hf'; exact hf f (by simp [hp, inFlight])⟩
  · next f n left hp =>
    split at h
    · cases h
    · cases h
      have hff : F f := hf f (by simp [hp, inFlight])
      have ha := retryAgain_spec (P := P) hff n left (setPhase .start s)
      refine (continueRun_advances hF hP hm0 ha.1 fun t ht => ?_).after h0
      have := ha.2 t ht
      exact ⟨by simp [hp, phasePrim, BlockedPhase, this], fun f' hf' => by rw [this] at hf'; cases hf'; exact hff⟩
  · next left hp =>
    split at h
    · cases h
    · cases h
      have ha := countTicks_spec (F := F) (P := P) left .waiting (setPhase .start s)
      refine (continueRun_advances hF hP hm0 ha.1 fun t ht => ?_).after h0
      obtain ⟨k, hk⟩ := ha.2 t ht
      exact ⟨by simp [hp, phasePrim, BlockedPhase, hk], fun f' hf' => by simp [hk, inFlight] at hf'⟩
  · next hp =>
    split at h
    · cases h
    · cases h
      have ha := claimBus_spec (F := F) (hc hp) (setPhase .start s)
      refine (continueRun_advances hF hP hm0 ha.1 fun t ht => ?_).after h0
      have hk := ha.2 t ht
      exact ⟨by simp [hp, phasePrim, BlockedPhase, hk], fun f' hf' => by simp [hk, inFlight] at hf'⟩
  · next hp =>
    split at h
    · cases h
    · next hpl =>
      cases h
      obtain ⟨b, rest, hl⟩ := List.exists_cons_of_ne_nil hpl
      have he : sendNextPayload (setPhase .start s)
          = sendFrame (encodeByte b true s.blMask) { setPhase .start s with payload := rest } := by
        simp [sendNextPayload, hl, sendDataByte]
      have ha := attempts_spec (F := F) (P := P) (hm .sendPayload (hs hp) rfl b true) s.statuses 0#16 { setPhase .start s with payload := rest }
      rw [he]
      refine (continueRun_advances hF hP hm0 ((Updates.one (.payload _ rest)).trans ha.1) fun t ht => ?_).after h0
      have := ha.2 t ht
      exact ⟨by simp [hp, phasePrim, BlockedPhase, this], fun f' hf' => by
        rw [this] at hf'; cases hf'; exact hm .sendPayload (hs hp) rfl b true⟩
  · next hp =>
    split at h
    · cases h
    · next hpl =>
      cases h
      obtain ⟨b, rest, hl⟩ := List.exists_cons_of_ne_nil hpl
      have he : dropNextPayload (setPhase .start s) = .done { setPhase .start s with payload := rest } := by
        simp [dropNextPayload, hl]
      rw [he]
      exact (continueRun_advances hF hP hm0 (.one (.payload _ rest)) fun t ht => by cases ht).after h0

end

/-- What a step is: an idle block with nothing offered stays; one with a word offered runs the word's plan; a request in
progress goes on. -/
theorem step_cases {s t : State} (h : step s = .next t) :
    (s.busy = false ∧ s.requests = [] ∧ t = s) ∨
    (∃ w ws p, s.busy = false ∧ s.requests = w :: ws ∧ request p { s with requests := ws } = .next t
      ∧ (∀ q ∈ p.body, mayRun (reqOpc p.word) q = true) ∧ framesBeforeRelease p.body = true
      ∧ (.claimBus ∈ p.body → p.body = [.claimBus] ∧ p.illegal = s.busOpen)
      ∧ ((∃ i, decode w = .ok i ∧ PlanOf i { s with requests := ws } p)
        ∨ ((∃ e, decode w = .error e) ∧ p.word = w ∧ p.illegal = true))) ∨
    (s.busy = true ∧ resume s = .next t) := by
  unfold step at h
  split at h
  · next hb => exact .inr (.inr ⟨hb, h⟩)
  · next hb =>
    have hb' : s.busy = false := by simpa using hb
    split at h
    · next hr => exact .inl ⟨hb', hr, by cases h; rfl⟩
    · next w ws hr =>
      obtain ⟨p, h1, h2⟩ := runWord_request w { s with requests := ws }
      exact .inr (.inl ⟨w, ws, p, hb', hr, h1 ▸ h, h2⟩)

end Sys2Proof.Machine
end

