-- ==== Sys2Proof/Machine/Assembler.lean ====
section
/-! DEFINITION. The assembler syntax of a request (30_encoding.md R87) and the three pseudo-instructions (R88). The lexical
points R87 leaves open (blanks, letter case, what a quoted text may hold, a bare 0x, where a quoted character or a string
literal may stand) are log 16. -/

namespace Sys2Proof.Machine

/-! ## Tokens -/

/-- A token of one line. -/
inductive Tok where
  /-- A mnemonic or the name of an enumeration value. -/
  | word (cs : List Char)
  /-- A decimal or 0x-hex number. -/
  | num (n : Nat)
  /-- A character operand 'c'. -/
  | chr (c : Char)
  /-- A string literal. -/
  | str (cs : List Char)
  | comma
  | semicolon
  | openBracket
  | closeBracket
  deriving DecidableEq, Repr

/-- What the lexer is inside of. -/
inductive LexMode where
  | gap
  /-- In a word; its characters so far, last first. -/
  | inWord (rev : List Char)
  /-- After a leading 0, which an x may follow. -/
  | inZero
  | inDec (n : Nat)
  | inHex (n : Nat)
  /-- After the opening quote of a character. -/
  | inChr
  /-- After the character of a character operand. -/
  | inChrEnd (c : Char)
  /-- In a string literal; its characters so far, last first. -/
  | inStr (rev : List Char)
  deriving DecidableEq, Repr

/-- A decimal digit's value. -/
def decDigit? (c : Char) : Option Nat := if '0' ≤ c ∧ c ≤ '9' then some (c.toNat - 48) else none

/-- A hexadecimal digit's value. -/
def hexDigit? (c : Char) : Option Nat :=
  if '0' ≤ c ∧ c ≤ '9' then some (c.toNat - 48)
  else if 'a' ≤ c ∧ c ≤ 'f' then some (c.toNat - 87)
  else if 'A' ≤ c ∧ c ≤ 'F' then some (c.toNat - 55)
  else none

/-- A letter of a mnemonic or of a name: upper case, digits and the underscore. -/
def wordChar (c : Char) : Bool := ('A' ≤ c && c ≤ 'Z') || ('0' ≤ c && c ≤ '9') || c == '_'

/-- The token that ends with the mode, where it may end. R87 does not say what 0x with no digit after it is: the model reads
it as the number 0 (DESIGN CHOICE, log 16). -/
def endTok : LexMode → Option (List Tok)
  | .gap => some []
  | .inWord rev => some [.word rev.reverse]
  | .inZero => some [.num 0]
  | .inDec n => some [.num n]
  | .inHex n => some [.num n]
  | .inChr => none
  | .inChrEnd _ => none
  | .inStr _ => none

/-- What one character outside words, numbers and quotes gives: tokens, and the mode after it. -/
def lexGap (c : Char) : Option (List Tok × LexMode) :=
  if c = ' ' ∨ c = '\t' then some ([], .gap)
  else if c = ',' then some ([.comma], .gap)
  else if c = ';' then some ([.semicolon], .gap)
  else if c = '[' then some ([.openBracket], .gap)
  else if c = ']' then some ([.closeBracket], .gap)
  else if c = '\'' then some ([], .inChr)
  else if c = '"' then some ([], .inStr [])
  else if c = '0' then some ([], .inZero)
  else match decDigit? c with
    | some d => some ([], .inDec d)
    | none => if wordChar c then some ([], .inWord [c]) else none

/-- What one character gives in a mode. -/
def lexChar (m : LexMode) (c : Char) : Option (List Tok × LexMode) :=
  let close (t : Tok) := (lexGap c).map fun r => (t :: r.1, r.2)
  match m with
  | .gap => lexGap c
  | .inWord rev => if wordChar c then some ([], .inWord (c :: rev)) else close (.word rev.reverse)
  | .inZero =>
    if c = 'x' then some ([], .inHex 0)
    else match decDigit? c with
      | some d => some ([], .inDec d)
      | none => close (.num 0)
  | .inDec n =>
    match decDigit? c with
    | some d => some ([], .inDec (10 * n + d))
    | none => close (.num n)
  | .inHex n =>
    match hexDigit? c with
    | some d => some ([], .inHex (16 * n + d))
    | none => close (.num n)
  | .inChr => some ([], .inChrEnd c)
  | .inChrEnd k => if c = '\'' then some ([.chr k], .gap) else none
  | .inStr rev => if c = '"' then some ([.str rev.reverse], .gap) else some ([], .inStr (c :: rev))

/-- The tokens of a line, or `none` where a character has no place. -/
def lex : LexMode → List Char → Option (List Tok)
  | m, [] => endTok m
  | m, c :: cs =>
    match lexChar m c with
    | none => none
    | some (ts, m') => (lex m' cs).map (ts ++ ·)

/-! ## Operands and payload -/

/-- A number of 0 to 255. -/
def byteOfNat? (n : Nat) : Option Byte := if n < 256 then some (BitVec.ofNat 8 n) else none

/-- A character's ASCII code (30_encoding.md R87). -/
def byteOfChar? (c : Char) : Option Byte := if c.toNat < 128 then some (BitVec.ofNat 8 c.toNat) else none

/-- The names an enumeration operand may be written by (30_encoding.md R87). -/
def cursorNames : List (List Char × Byte) :=
  [("HIDDEN".toList, 0#8), ("BLINK".toList, 1#8), ("UNDERLINE".toList, 2#8), ("BOTH".toList, 3#8)]
/-- Entry mode names. -/
def entryNames : List (List Char × Byte) :=
  [("DEC".toList, 0#8), ("DEC_SHIFT".toList, 1#8), ("INC".toList, 2#8), ("INC_SHIFT".toList, 3#8)]
/-- Direction names. -/
def dirNames : List (List Char × Byte) := [("LEFT".toList, 0#8), ("RIGHT".toList, 1#8)]
/-- On and off. -/
def onNames : List (List Char × Byte) := [("OFF".toList, 0#8), ("ON".toList, 1#8)]

/-- One operand: a number, a character, or one of `names`. R87 gives 'c' for "a character operand" and does not say which
operands those are: the model takes it for every operand, and for an element of a byte list (DESIGN CHOICE, log 16). -/
def operand? (names : List (List Char × Byte)) : Tok → Option Byte
  | .num n => byteOfNat? n
  | .chr c => byteOfChar? c
  | .word cs => names.lookup cs
  | .str _ => none
  | .comma => none
  | .semicolon => none
  | .openBracket => none
  | .closeBracket => none

/-- The rest of a byte list after its opening bracket. R87 writes a list as [b0, b1, ...]: that it may be empty, and that a
comma may stand after its last byte ([1,] is the list of 1), is the model's choice (DESIGN CHOICE, log 16). -/
def byteList? : List Tok → Option (List Byte)
  | [.closeBracket] => some []
  | [t, .closeBracket] => (operand? [] t).map fun b => [b]
  | t :: .comma :: rest =>
    match operand? [] t, byteList? rest with
    | some b, some bs => some (b :: bs)
    | _, _ => none
  | _ => none

/-- A payload after its semicolon: a byte list, or a string literal of ASCII characters. R87 names the literal for SEND_STRING;
the model takes one for CREATE_CUSTOM_CHAR too, where it has 8 characters (DESIGN CHOICE, log 16). -/
def payload? : List Tok → Option (List Byte)
  | [.str cs] => cs.mapM byteOfChar?
  | .openBracket :: rest => byteList? rest
  | _ => none

/-- Split a line at its semicolon. -/
def splitPayload : List Tok → List Tok × Option (List Tok)
  | [] => ([], none)
  | .semicolon :: rest => ([], some rest)
  | t :: rest => ((t :: (splitPayload rest).1), (splitPayload rest).2)

/-! ## Lines -/

/-- A request and the payload written with it. -/
abbrev AsmRequest := Instr × List Byte

/-- A mnemonic with no operand. -/
def asm0 (i : Instr) : List Tok → Option AsmRequest
  | [] => some (i, [])
  | _ :: _ => none

/-- A mnemonic with operand A. -/
def asm1 (names : List (List Char × Byte)) (mk : Byte → Instr) : List Tok → Option AsmRequest
  | [t] => (operand? names t).map fun a => (mk a, [])
  | _ => none

/-- A mnemonic with operands A, B. -/
def asm2 (names : List (List Char × Byte)) (mk : Byte → Byte → Instr) : List Tok → Option AsmRequest
  | [t, .comma, u] =>
    match operand? names t, operand? [] u with
    | some a, some b => some (mk a b, [])
    | _, _ => none
  | _ => none

/-- SEND_STRING with its payload: the length operand is the payload's byte count (30_encoding.md R87, which says so of a
literal; that a byte list gives the length in the same way is log 16, DESIGN CHOICE). -/
def asmString (bs : List Byte) : Option AsmRequest := (byteOfNat? bs.length).map fun n => (.sendString n, bs)

/-- A line without a payload. SEND_STRING with its length operand and CREATE_CUSTOM_CHAR may stand so; their payload is then
offered apart (DESIGN CHOICE, log 16). -/
def asmPlain (m : List Char) (ops : List Tok) : Option AsmRequest :=
  if m = "OPEN".toList then asm0 .openBus ops
  else if m = "CLOSE".toList then asm0 .close ops
  else if m = "INIT".toList then asm1 cursorNames .init ops
  else if m = "RESET_SCREEN".toList then asm1 cursorNames .resetScreen ops
  else if m = "CLEAR_SCREEN".toList then asm0 .clearScreen ops
  else if m = "CLEAR_SCREEN_CMD".toList then asm0 .clearScreenCmd ops
  else if m = "HOME".toList then asm0 .home ops
  else if m = "GOTO".toList then asm2 [] .goto ops
  else if m = "SEND_CHAR".toList then asm1 [] .sendChar ops
  else if m = "SEND_STRING".toList then asm1 [] .sendString ops
  else if m = "MOVE_CURSOR".toList then asm2 dirNames .moveCursor ops
  else if m = "SCROLL".toList then asm2 dirNames .scroll ops
  else if m = "CHANGE_ENTRY_MODE".toList then asm1 entryNames .changeEntryMode ops
  else if m = "CREATE_CUSTOM_CHAR".toList then asm1 [] .createCustomChar ops
  else if m = "PRINT_CUSTOM_CHAR".toList then asm1 [] .printCustomChar ops
  else if m = "BACKLIGHT_SET".toList then asm1 onNames .backlightSet ops
  else if m = "DISPLAY_ON".toList then asm1 onNames .displayOn ops
  else if m = "CLEAR_LINE".toList then asm1 [] .clearLine ops
  else if m = "SHUTDOWN".toList then asm0 .shutdown ops
  else if m = "SEND_CMD".toList then asm1 [] .sendCmd ops
  else if m = "WRITE".toList then asm1 [] .sendChar ops
  else if m = "GOTO_HOME_POS".toList then asm0 (.goto 1#8 0#8) ops
  else match ops with
    | [.str cs] => if m = "PRINT".toList then (cs.mapM byteOfChar?).bind asmString else none
    | _ => none

/-- A line with a payload. -/
def asmPayload (m : List Char) (ops : List Tok) (bs : List Byte) : Option AsmRequest :=
  if m = "SEND_STRING".toList then
    match ops with
    | [] => asmString bs
    | _ :: _ => none
  else if m = "CREATE_CUSTOM_CHAR".toList then
    if bs.length = 8 then (asm1 [] .createCustomChar ops).map fun r => (r.1, bs) else none
  else none

/-- One line: the request it stands for and its payload (30_encoding.md R87, R88). -/
def assemble (line : List Char) : Option AsmRequest :=
  match lex .gap line with
  | none => none
  | some ts =>
    match splitPayload ts with
    | (.word m :: ops, none) => asmPlain m ops
    | (.word m :: ops, some p) => (payload? p).bind (asmPayload m ops)
    | _ => none

end Sys2Proof.Machine
end

