-- ==== Sys2Proof/Tests/Slice0.lean ====
section
/-! SUPPORT. Tests of the model. Expected words, traces and register values are those of the tables of spec/30_encoding.md and
of the vectors of spec/95_test_vectors.md, cited at each group; then, for every statement with hypotheses, a witness that meets
them. -/

namespace Sys2Proof.Tests

open Sys2Proof Sys2Proof.Machine

/-! ## Helpers -/

/-- The state a step leaves; the reset state where it stops. -/
def after : Result → State
  | .next t => t
  | .fault _ => State.reset
  | .refused _ => State.reset

/-- The fault a step stops with. -/
def faultOf : Result → Option Fault
  | .next _ => none
  | .fault f => some f
  | .refused _ => none

/-- A delivered frame to address 0x27. -/
def fr (b0 b1 b2 b3 : Byte) : Event := .frame 0x27#7 ⟨b0, b1, b2, b3⟩ 0#8

/-- Ready16 of 95_test_vectors.md. -/
def ready16 : State :=
  { State.reset with busOpen := true, initState := .ready, ctValid := true, entryMode := 2#2, emValid := true }

/-- `s` with `n` successful attempts and `k` ticks to come. -/
def served (n k : Nat) (s : State) : State := { s with statuses := List.replicate n 0#8, ticks := k }

/-- `s` for a display of R rows and C columns. -/
def sized (rows : BitVec 3) (cols : Byte) (s : State) : State := { s with cfg := { s.cfg with rows := rows, cols := cols } }

/-- `s` with CFG.DEBUG = 1. -/
def debug (s : State) : State := { s with cfg := { s.cfg with debug := true } }

/-- `s` with a retry limit, a retry delay of `d` ms and the statuses and ticks to come. -/
def retrying (limit d : Half) (sts : List Byte) (ticks : Nat) (s : State) : State :=
  { s with cfg := { s.cfg with retryLimit := limit, retryDelayMs := d }, statuses := sts, ticks := ticks }

/-- The trace of one request. -/
def traceOf (i : Instr) (s : State) : List Event := (after (exec i s)).trace

/-! ## WellFormed: one ill-formed term for each check (30_encoding.md R82 items 4 and 5) -/

theorem test_illFormed_init : (Instr.init 4#8).wellFormed = false := by decide
theorem test_illFormed_resetScreen : (Instr.resetScreen 4#8).wellFormed = false := by decide
theorem test_illFormed_changeEntryMode : (Instr.changeEntryMode 4#8).wellFormed = false := by decide
theorem test_illFormed_moveCursor : (Instr.moveCursor 2#8 1#8).wellFormed = false := by decide
theorem test_illFormed_scroll : (Instr.scroll 2#8 1#8).wellFormed = false := by decide
theorem test_illFormed_backlightSet : (Instr.backlightSet 2#8).wellFormed = false := by decide
theorem test_illFormed_displayOn : (Instr.displayOn 2#8).wellFormed = false := by decide

/-! ## Decoding, each word written from the opcode map of 30_encoding.md R75 (RSV, B, A, OPC) -/

theorem test_decode_openBus : decode 0x00000001#32 = .ok .openBus := by decide
theorem test_decode_close : decode 0x00000002#32 = .ok .close := by decide
theorem test_decode_init : decode 0x00000203#32 = .ok (.init 2#8) := by decide
theorem test_decode_resetScreen : decode 0x00000104#32 = .ok (.resetScreen 1#8) := by decide
theorem test_decode_clearScreen : decode 0x00000005#32 = .ok .clearScreen := by decide
theorem test_decode_clearScreenCmd : decode 0x00000006#32 = .ok .clearScreenCmd := by decide
theorem test_decode_home : decode 0x00000007#32 = .ok .home := by decide
theorem test_decode_goto : decode 0x00130408#32 = .ok (.goto 4#8 19#8) := by decide
theorem test_decode_sendChar : decode 0x00004109#32 = .ok (.sendChar 0x41#8) := by decide
theorem test_decode_sendString : decode 0x0000020A#32 = .ok (.sendString 2#8) := by decide
theorem test_decode_moveCursor : decode 0x0002010B#32 = .ok (.moveCursor 1#8 2#8) := by decide
theorem test_decode_scroll : decode 0x0003010C#32 = .ok (.scroll 1#8 3#8) := by decide
theorem test_decode_changeEntryMode : decode 0x0000030D#32 = .ok (.changeEntryMode 3#8) := by decide
theorem test_decode_createCustomChar : decode 0x0000070E#32 = .ok (.createCustomChar 7#8) := by decide
theorem test_decode_printCustomChar : decode 0x0000080F#32 = .ok (.printCustomChar 8#8) := by decide
theorem test_decode_backlightSet : decode 0x00000110#32 = .ok (.backlightSet 1#8) := by decide
theorem test_decode_displayOn : decode 0x00000011#32 = .ok (.displayOn 0#8) := by decide
theorem test_decode_clearLine : decode 0x00000212#32 = .ok (.clearLine 2#8) := by decide
theorem test_decode_shutdown : decode 0x00000013#32 = .ok .shutdown := by decide
theorem test_decode_sendCmd : decode 0x0000FF14#32 = .ok (.sendCmd 0xFF#8) := by decide

/-- Bit by bit, one word of each family: RSV, then B, then A, then OPC. -/
theorem test_decode_bits :
    decode 0b00000000000000000000000000000001#32 = .ok .openBus
    ∧ decode 0b00000000000000001111111100010100#32 = .ok (.sendCmd 0xFF#8)
    ∧ decode 0b00000000000000000000001100000011#32 = .ok (.init 3#8)
    ∧ decode 0b00000000000100110000010000001000#32 = .ok (.goto 4#8 19#8) := by decide

/-- 95_test_vectors.md L2.9: the illegal words, by the item of 30_encoding.md R82 that refuses them. -/
theorem test_decode_illegal :
    decode 0x00000000#32 = .error .reservedOpcode ∧ decode 0x00000015#32 = .error .reservedOpcode
    ∧ decode 0x000000FF#32 = .error .reservedOpcode ∧ decode 0x01000109#32 = .error .rsvNotZero
    ∧ decode 0x00010005#32 = .error .operandNotZero ∧ decode 0x0001000F#32 = .error .operandNotZero
    ∧ decode 0x00000403#32 = .error .operandOutOfRange ∧ decode 0x0001020B#32 = .error .operandOutOfRange := by decide

theorem test_decodeTableWord : decodeTableWord 32 0x00130408 = some (.goto 4#8 19#8) ∧ decodeTableWord 32 0x15 = none := by
  decide

/-! ## The encoder of frames (95_test_vectors.md L2.1) -/

theorem test_encode_data : encodeByte 0x48#8 true 0x0F#8 = ⟨0x4D#8, 0x49#8, 0x8D#8, 0x89#8⟩
    ∧ encodeByte 0x41#8 true 0x07#8 = ⟨0x45#8, 0x41#8, 0x15#8, 0x11#8⟩ := by decide
theorem test_encode_command : encodeByte 0x28#8 false 0x0F#8 = ⟨0x2C#8, 0x28#8, 0x8C#8, 0x88#8⟩
    ∧ encodeByte 0xFF#8 false 0x07#8 = ⟨0xF4#8, 0xF0#8, 0xF4#8, 0xF0#8⟩ := by decide
/-- 20_memory.md R56: b0 in bits [7:0] of xfer_data. -/
theorem test_xferData : xferData ⟨0x4D#8, 0x49#8, 0x8D#8, 0x89#8⟩ = 0x898D494D#32 := by decide

/-! ## Requests, one step each (95_test_vectors.md L2.2 to L2.8 and L3) -/

theorem test_sendCmd : traceOf (.sendCmd 0x01#8) (served 1 0 ready16) = [fr 0x0C#8 0x08#8 0x1C#8 0x18#8, .resp 0#3] := by decide
theorem test_sendChar : traceOf (.sendChar 0xFF#8) (served 1 0 ready16) = [fr 0xFD#8 0xF9#8 0xFD#8 0xF9#8, .resp 0#3] := by
  decide
/-- A send before Ready: STATUS becomes 0x00114. -/
theorem test_sendChar_notReady :
    statusRead 0#3 (after (exec (.sendChar 0x41#8) (served 1 0 { State.reset with busOpen := true }))) = 0x00114#32 := by decide
theorem test_sendString : traceOf (.sendString 2#8) { served 2 0 ready16 with payload := [0x41#8, 0x00#8] }
    = [fr 0x4D#8 0x49#8 0x1D#8 0x19#8, fr 0x0D#8 0x09#8 0x0D#8 0x09#8, .resp 0#3] := by decide
/-- P5: the first byte's frame dropped after two retries, the second sent. -/
theorem test_sendString_dropped :
    traceOf (.sendString 2#8) { retrying 2#16 50#16 [5#8, 5#8, 5#8, 0#8] 102 (debug ready16) with payload := [0x48#8, 0x49#8] }
    = [.frame 0x27#7 ⟨0x4D#8, 0x49#8, 0x8D#8, 0x89#8⟩ 5#8, .log .retry 0x0501#16, .delay 50#16,
       .frame 0x27#7 ⟨0x4D#8, 0x49#8, 0x8D#8, 0x89#8⟩ 5#8, .log .retry 0x0502#16, .delay 50#16,
       .frame 0x27#7 ⟨0x4D#8, 0x49#8, 0x8D#8, 0x89#8⟩ 5#8, .log .frameDropped 0x0005#16,
       fr 0x4D#8 0x49#8 0x9D#8 0x99#8, .resp 6#3] := by decide

theorem test_open : traceOf .openBus { State.reset with claims := [true] } = [.claim 0x27#7 0#16 true, .resp 0#3] := by decide
/-- P8: a failed claim. -/
theorem test_open_unavailable : traceOf .openBus (debug { State.reset with claims := [false] })
    = [.claim 0x27#7 0#16 false, .log .busUnavailable 0x0027#16, .resp 3#3] := by decide
theorem test_close : traceOf .close ready16 = [.release, .resp 0#3] ∧ (after (exec .close ready16)).initState = .ready := by
  decide
theorem test_close_closed : traceOf .close State.reset = [.resp 0#3] := by decide

/-- V-INIT-1. -/
theorem test_init : traceOf (.init 0#8) (served 8 40 { State.reset with busOpen := true })
    = [.delay 15#16, fr 0x0C#8 0x08#8 0x2C#8 0x28#8, .delay 5#16, fr 0x0C#8 0x08#8 0x2C#8 0x28#8, .delay 5#16,
       fr 0x0C#8 0x08#8 0x2C#8 0x28#8, .delay 5#16, fr 0x2C#8 0x28#8 0x8C#8 0x88#8, fr 0x0C#8 0x08#8 0xCC#8 0xC8#8,
       fr 0x0C#8 0x08#8 0xCC#8 0xC8#8, fr 0x0C#8 0x08#8 0x6C#8 0x68#8, fr 0x0C#8 0x08#8 0x1C#8 0x18#8, .delay 5#16,
       .resp 0#3] := by decide
theorem test_init_status :
    statusRead 0#3 (after (exec (.init 0#8) (served 8 40 { State.reset with busOpen := true }))) = 0x34017#32 := by decide
theorem test_resetScreen : traceOf (.resetScreen 1#8) (served 5 4 ready16)
    = [fr 0x2C#8 0x28#8 0x8C#8 0x88#8, fr 0x0C#8 0x08#8 0xCC#8 0xC8#8, fr 0x0C#8 0x08#8 0xDC#8 0xD8#8,
       fr 0x0C#8 0x08#8 0x1C#8 0x18#8, .delay 3#16, fr 0x0C#8 0x08#8 0x6C#8 0x68#8, .resp 0#3] := by decide
theorem test_resetScreen_status : statusRead 0#3 (after (exec (.resetScreen 1#8) (served 5 4 ready16))) = 0x35017#32 := by
  decide
theorem test_shutdown : traceOf .shutdown (served 1 6 ready16)
    = [fr 0x0C#8 0x08#8 0x8C#8 0x88#8, .delay 5#16, .release, .resp 0#3] := by decide
theorem test_shutdown_status : statusRead 0#3 (after (exec .shutdown (served 1 6 ready16))) = 0x34010#32 := by decide

/-- Ready2x2 with CLEAR_ROW_ORDER descending. -/
theorem test_clearScreen_descending :
    traceOf .clearScreen (served 6 0 (sized 2#3 2#8 { ready16 with par := { defaultParams with rowOrder := .descending } }))
    = [fr 0xCC#8 0xC8#8 0x0C#8 0x08#8, fr 0x2D#8 0x29#8 0x0D#8 0x09#8, fr 0x2D#8 0x29#8 0x0D#8 0x09#8,
       fr 0x8C#8 0x88#8 0x0C#8 0x08#8, fr 0x2D#8 0x29#8 0x0D#8 0x09#8, fr 0x2D#8 0x29#8 0x0D#8 0x09#8, .resp 0#3] := by decide
theorem test_clearScreen_geometry : traceOf .clearScreen (debug (sized 3#3 8#8 ready16))
    = [.log .invalidGeometry 0x0503#16, .resp 5#3] := by decide
/-- CLEAR_LINE 3 with 16 columns: 0x90, then 16 spaces. -/
theorem test_clearLine : traceOf (.clearLine 3#8) (served 17 0 (sized 4#3 16#8 ready16))
    = fr 0x9C#8 0x98#8 0x0C#8 0x08#8 :: List.replicate 16 (fr 0x2D#8 0x29#8 0x0D#8 0x09#8) ++ [.resp 0#3] := by decide
theorem test_clearLine_geometry : traceOf (.clearLine 3#8) (debug (sized 2#3 8#8 ready16))
    = [.log .invalidGeometry 0x1203#16, .resp 5#3] := by decide
theorem test_clearScreenCmd : traceOf .clearScreenCmd (served 1 4 ready16)
    = [fr 0x0C#8 0x08#8 0x1C#8 0x18#8, .delay 3#16, .resp 0#3] := by decide

theorem test_home : traceOf .home (served 1 4 ready16) = [fr 0x0C#8 0x08#8 0x2C#8 0x28#8, .delay 3#16, .resp 0#3] := by decide
/-- 0x94 + 0x6C wraps to 0x00 on 20 columns. -/
theorem test_goto_wraps : traceOf (.goto 3#8 0x6C#8) (served 1 0 (sized 4#3 20#8 ready16))
    = [fr 0x0C#8 0x08#8 0x0C#8 0x08#8, .resp 0#3] := by decide
/-- A row above ROWS is accepted; 0xD0 | 0 on 16 columns. -/
theorem test_goto_beyondRows : traceOf (.goto 4#8 0#8) (served 1 0 ready16)
    = [fr 0xDC#8 0xD8#8 0x0C#8 0x08#8, .resp 0#3] := by decide
theorem test_moveCursor : traceOf (.moveCursor 1#8 2#8) (served 2 0 ready16)
    = [fr 0x1C#8 0x18#8 0x4C#8 0x48#8, fr 0x1C#8 0x18#8 0x4C#8 0x48#8, .resp 0#3] := by decide
theorem test_moveCursor_busNotOpen : traceOf (.moveCursor 0#8 1#8) State.reset = [.resp 2#3] := by decide
theorem test_scroll_left : traceOf (.scroll 0#8 1#8) (served 1 0 ready16) = [fr 0x1C#8 0x18#8 0x8C#8 0x88#8, .resp 0#3] := by
  decide
theorem test_scroll_right : traceOf (.scroll 1#8 1#8) (served 1 0 ready16) = [fr 0x1C#8 0x18#8 0xCC#8 0xC8#8, .resp 0#3] := by
  decide
theorem test_changeEntryMode : traceOf (.changeEntryMode 1#8) (served 1 0 ready16)
    = [fr 0x0C#8 0x08#8 0x5C#8 0x58#8, .resp 0#3]
    ∧ (after (exec (.changeEntryMode 1#8) (served 1 0 ready16))).entryMode = 1#2 := by decide
theorem test_changeEntryMode_illegal : traceOf (.changeEntryMode 4#8) ready16 = [.resp 1#3]
    ∧ (after (exec (.changeEntryMode 4#8) ready16)).entryMode = 2#2 := by decide

theorem test_createCustomChar :
    traceOf (.createCustomChar 7#8) { served 9 0 ready16 with payload := List.replicate 8 0xFF#8 }
    = fr 0x7C#8 0x78#8 0x8C#8 0x88#8 :: List.replicate 8 (fr 0xFD#8 0xF9#8 0xFD#8 0xF9#8) ++ [.resp 0#3] := by decide
theorem test_createCustomChar_slot :
    traceOf (.createCustomChar 8#8) { debug ready16 with payload := List.replicate 9 0xFF#8 } = [.resp 4#3]
    ∧ (after (exec (.createCustomChar 8#8) { ready16 with payload := List.replicate 9 0xFF#8 })).payload = [0xFF#8] := by decide
theorem test_printCustomChar : traceOf (.printCustomChar 3#8) (served 1 0 ready16)
    = [fr 0x0D#8 0x09#8 0x3D#8 0x39#8, .resp 0#3] := by decide
theorem test_printCustomChar_slot : traceOf (.printCustomChar 8#8) ready16 = [.resp 4#3] := by decide

theorem test_backlightSet : traceOf (.backlightSet 0#8) ready16 = [.resp 0#3]
    ∧ statusRead 0#3 (after (exec (.backlightSet 0#8) ready16)) = 0x34007#32 := by decide
theorem test_backlightSet_closed : (after (exec (.backlightSet 0#8) State.reset)).blMask = 0x07#8 := by decide
theorem test_displayOn_on : traceOf (.displayOn 1#8) (served 1 6 ready16)
    = [fr 0x0C#8 0x08#8 0xCC#8 0xC8#8, .delay 5#16, .resp 0#3] := by decide
theorem test_displayOn_off : traceOf (.displayOn 0#8) (served 1 6 ready16)
    = [fr 0x0C#8 0x08#8 0x8C#8 0x88#8, .delay 5#16, .resp 0#3] := by decide

/-- P4: a retried frame leaves no flag; ERRCNT records it. -/
theorem test_retry : traceOf (.sendChar 0x48#8) (retrying 0#16 50#16 [1#8, 0#8] 51 (debug ready16))
    = [.frame 0x27#7 ⟨0x4D#8, 0x49#8, 0x8D#8, 0x89#8⟩ 1#8, .log .retry 0x0101#16, .delay 50#16,
       fr 0x4D#8 0x49#8 0x8D#8 0x89#8, .resp 0#3]
    ∧ (after (exec (.sendChar 0x48#8) (retrying 0#16 50#16 [1#8, 0#8] 51 ready16))).errcnt = 1#32 := by decide
/-- L2.3: RETRY_LIMIT 1, statuses 3, 3: STATUS 0x1B4217. -/
theorem test_drop_status :
    statusRead 0#3 (after (exec (.sendChar 0x48#8) (retrying 1#16 50#16 [3#8, 3#8] 51 ready16))) = 0x1B4217#32 := by decide

/-- L2.9: an illegal word offered, with CFG.DEBUG = 1. -/
theorem test_step_illegalWord : (after (step { debug State.reset with requests := [0x000000FF#32] })).trace
    = [.log .illegalRequest 0x00FF#16, .resp 1#3] := by decide
/-- P7, request 1. -/
theorem test_step_busNotOpen : (after (step { debug State.reset with requests := [0x00004109#32] })).trace
    = [.log .busNotOpen 0x0009#16, .resp 2#3] := by decide
/-- 10_state.md R36 and 95_test_vectors.md: STATUS of Ready16 and at reset (BL_ON alone). -/
theorem test_status : statusRead 0#3 ready16 = 0x34017#32 ∧ statusRead 0#3 State.reset = 0x00010#32 := by decide
/-- The word that withFetchWord places is the next to run. -/
theorem test_fetchWord : (after (step (State.reset.withFetchWord 32 0x00000010))).blMask = 0x07#8 := by decide
/-- 41_encoder.md R128: the frame of data 0x48 latches 4, then 8, as data. -/
theorem test_latch : latchedNibbles (frameBytes (encodeByte 0x48#8 true 0x0F#8)) = [(true, 4#4), (true, 8#4)] := by decide

/-! ## The assembler: the examples of 30_encoding.md R87 and R88 -/

theorem test_asm_init : assemble "INIT HIDDEN".toList = some (.init 0#8, []) := by decide
theorem test_asm_goto : assemble "GOTO 1, 0".toList = some (.goto 1#8 0#8, []) := by decide
theorem test_asm_string : assemble "SEND_STRING ; \"HI\"".toList = some (.sendString 2#8, [0x48#8, 0x49#8]) := by decide
theorem test_asm_glyph :
    assemble "CREATE_CUSTOM_CHAR 2 ; [0x00,0x0A,0x1F,0x1F,0x0E,0x04,0x00,0x00]".toList
    = some (.createCustomChar 2#8, [0x00#8, 0x0A#8, 0x1F#8, 0x1F#8, 0x0E#8, 0x04#8, 0x00#8, 0x00#8]) := by decide
theorem test_asm_pseudo : assemble "GOTO_HOME_POS".toList = some (.goto 1#8 0#8, [])
    ∧ assemble "WRITE 'A'".toList = some (.sendChar 0x41#8, [])
    ∧ assemble "PRINT \"HI\"".toList = some (.sendString 2#8, [0x48#8, 0x49#8]) := by decide

/-! ## Witnesses: states and operands that meet the hypotheses of each statement -/

theorem witness_DecodeOfEncodeIsTheInstruction : (Instr.init 3#8).wellFormed = true := by decide
theorem witness_EncodeOfDecodeIsTheWord : decode 0x00FFFF08#32 = .ok (.goto 0xFF#8 0xFF#8) := by decide
/-- A word some row matches, and one none does. -/
theorem witness_DecodeAcceptsExactlyTheTableRows :
    (∃ r ∈ opcodeTable, r.matches 0x00000303#32 = true)
    ∧ ∀ r ∈ opcodeTable, r.matches 0x00000403#32 = false := by decide
/-- One word for each item, and a legal one. -/
theorem witness_DecodeRefusesExactlyIllegalWords :
    IllegalWord 0x00000000#32 ∧ IllegalWord 0x00000015#32 ∧ IllegalWord 0x01000001#32
    ∧ IllegalWord 0x00000101#32 ∧ IllegalWord 0x00010009#32 ∧ IllegalWord 0x00000403#32 ∧ IllegalWord 0x00000210#32
    ∧ ¬ IllegalWord 0x00000014#32 := by
  refine ⟨?_, ?_, ?_, ?_, ?_, ?_, ?_, ?_⟩ <;> unfold IllegalWord <;> decide
/-- Each clause at one OPC, and RSV ≠ 0. -/
theorem witness_RequestWordFieldsAndPayloadLength :
    payloadLen 0x0000FF0A#32 = 255 ∧ payloadLen 0x0000000E#32 = 8 ∧ payloadLen 0x00004109#32 = 0
    ∧ decode 0xFF000001#32 = .error .rsvNotZero := by decide
theorem witness_StepRunsTheDecodedRequest :
    ({ State.reset with requests := [0x110#32] } : State).busy = false
    ∧ decode 0x110#32 = .ok (.backlightSet 1#8) := by decide
theorem witness_IdleStepWaitsAndAPlacedWordIsRunNext :
    State.reset.busy = false ∧ State.reset.requests = []
    ∧ decode (BitVec.ofNat 32 (0x14 % 2 ^ 32)) = .ok (.sendCmd 0#8) := by decide
theorem witness_BusyBlockAcceptsNoRequest : ({ State.reset with busy := true } : State).busy = true := by decide
theorem witness_AcceptanceReadsNoTransientState : State.reset.busy = false := by decide
/-- One stuck state for each clause. -/
def stuck (p : Phase) : State := { ready16 with busy := true, seq := { Seq.idle with phase := p } }
theorem witness_StuckExactlyWithoutTheAwaitedInput :
    faultOf (step (stuck .payloadSend)) = some .payloadMissing
    ∧ faultOf (step (stuck .payloadDrop)) = some .payloadMissing
    ∧ faultOf (step (stuck .claiming)) = some .claimUnanswered
    ∧ faultOf (step (stuck (.attempt ⟨0#8, 0#8, 0#8, 0#8⟩ 0#16))) = some .attemptUnanswered
    ∧ faultOf (step (stuck (.waiting 1))) = some .tickStopped
    ∧ faultOf (step (stuck (.retryWait ⟨0#8, 0#8, 0#8, 0#8⟩ 1#16 1))) = some .tickStopped
    ∧ faultOf (step (stuck (.waiting 0))) = none := by decide
/-- A request stopped at each kind of wait: an attempt, a payload byte to send, one to discard, a claim, a Wait, a retry's
Wait; and a step of a request in progress (HOME, one pulse at a time) that waits again. -/
theorem witness_AnswersMayArriveLate :
    (after (exec (.sendChar 0x48#8) ready16)).busy = true
    ∧ (after (exec (.sendChar 0x48#8) ready16)).seq.phase = .attempt ⟨0x4D#8, 0x49#8, 0x8D#8, 0x89#8⟩ 0#16
    ∧ (after (exec (.sendString 1#8) ready16)).seq.phase = .payloadSend
    ∧ (after (exec (.createCustomChar 8#8) ready16)).seq.phase = .payloadDrop
    ∧ (after (exec .openBus State.reset)).seq.phase = .claiming
    ∧ (after (exec .home (served 1 0 ready16))).seq.phase = .waiting 4
    ∧ (after (exec (.sendChar 0x48#8) (retrying 0#16 50#16 [1#8] 0 ready16))).seq.phase
        = .retryWait ⟨0x4D#8, 0x49#8, 0x8D#8, 0x89#8⟩ 1#16 51
    ∧ (after (step (offerTicks 1 (after (exec .home (served 1 0 ready16)))))).seq.phase = .waiting 3 := by decide
theorem witness_ResetTakesTheSpecValues :
    defaultCfg.blInit = true ∧ ({ defaultCfg with blInit := false } : Cfg).blInit = false := by decide
/-- 20_memory.md R53 and 95_test_vectors.md L1.3, L2.6, at the bounds of each clause. -/
theorem witness_RowAddressOfEveryRowAndWidth :
    rowAddr? 16#8 1#8 0xFF#8 = some 0xFF#8 ∧ rowAddr? 16#8 2#8 0#8 = some 0xC0#8
    ∧ rowAddr? 20#8 3#8 0x6C#8 = some 0#8 ∧ rowAddr? 16#8 3#8 5#8 = some 0x95#8 ∧ rowAddr? 20#8 4#8 19#8 = some 0xE7#8
    ∧ rowAddr? 16#8 4#8 15#8 = some 0xDF#8 ∧ rowAddr? 8#8 3#8 0#8 = none ∧ rowAddr? 16#8 0#8 0#8 = none
    ∧ rowAddr? 20#8 5#8 0#8 = none := by decide
theorem witness_EncodedFrameHasItsShapeAndInverse : blMaskOf true = 0x0F#8 ∧ blMaskOf false = 0x07#8 := by decide
theorem witness_FrameLatchesUpperNibbleThenLower : blMaskOf true = 0x0F#8 ∧ blMaskOf false = 0x07#8 := by decide
theorem witness_OpenClaimsTheBus :
    ready16.busy = false ∧ ready16.busOpen = true ∧ State.reset.busy = false ∧ State.reset.busOpen = false
    ∧ ({ State.reset with claims := [true] } : State).claims = true :: []
    ∧ ({ State.reset with claims := [false] } : State).claims = false :: [] := by decide
theorem witness_CloseReleasesTheBus :
    ready16.busy = false ∧ ready16.busOpen = true ∧ State.reset.busy = false ∧ State.reset.busOpen = false := by decide
/-- Two retries, then success (the most a limit of 2 allows), or a third failure. -/
theorem witness_SendFrameRetriesThenSucceedsOrDrops :
    (∀ st ∈ [5#8, 7#8], st ≠ 0#8)
    ∧ [5#8, 7#8].length * waitTicks (retrying 2#16 50#16 [5#8, 7#8, 0#8] 102 ready16).cfg.retryDelayMs ≤ 102
    ∧ (retrying 2#16 50#16 [5#8, 7#8, 0#8] 102 ready16).statuses = [5#8, 7#8] ++ 0#8 :: []
    ∧ [5#8, 7#8].length ≤ (retrying 2#16 50#16 [5#8, 7#8, 0#8] 102 ready16).cfg.retryLimit.toNat
    ∧ (retrying 2#16 50#16 [5#8, 7#8, 9#8] 102 ready16).statuses = [5#8, 7#8] ++ 9#8 :: []
    ∧ [5#8, 7#8].length = (retrying 2#16 50#16 [5#8, 7#8, 9#8] 102 ready16).cfg.retryLimit.toNat
    ∧ (retrying 2#16 50#16 [5#8, 7#8, 9#8] 102 ready16).cfg.retryLimit ≠ 0#16 := by decide
/-- A dropped SEND_CHAR; INIT, RESET_SCREEN, CHANGE_ENTRY_MODE and SHUTDOWN whose first frame is dropped (two attempts) complete
with response 6; and "HI" with limit 2 (P5). -/
theorem witness_DroppedFrameLetsTheRequestGoOn :
    (after (exec (.sendChar 0x48#8) (retrying 1#16 0#16 [3#8, 3#8] 0 ready16))).busy = false
    ∧ (retrying 1#16 0#16 [3#8, 3#8] 0 ready16).fFrameDropped = false
    ∧ (after (exec (.init 3#8) (retrying 1#16 0#16 ([3#8, 3#8] ++ List.replicate 7 0#8) 40 ready16))).busy = false
    ∧ (after (exec (.init 3#8) (retrying 1#16 0#16 ([3#8, 3#8] ++ List.replicate 7 0#8) 40 ready16))).lastResp = 6#3
    ∧ (after (exec (.resetScreen 3#8) (retrying 1#16 0#16 ([3#8, 3#8] ++ List.replicate 4 0#8) 4 ready16))).busy = false
    ∧ (after (exec (.changeEntryMode 3#8) (retrying 1#16 0#16 [3#8, 3#8] 0 ready16))).busy = false
    ∧ (after (exec (.changeEntryMode 3#8) (retrying 1#16 0#16 [3#8, 3#8] 0 ready16))).lastResp = 6#3
    ∧ (after (exec .shutdown (retrying 1#16 0#16 [3#8, 3#8] 6 ready16))).busy = false
    ∧ (after (exec .shutdown (retrying 1#16 0#16 [3#8, 3#8] 6 ready16))).lastResp = 6#3
    ∧ (retrying 2#16 50#16 [5#8, 5#8, 5#8, 0#8] 102 ready16).statuses
        = [5#8, 5#8] ++ 5#8 :: (List.replicate [0x49#8].length 0#8 ++ [])
    ∧ (2#8 : Byte).toNat = 1 + [0x49#8].length ∧ ready16.busOpen = true ∧ ready16.initState = .ready
    ∧ PassesRange .shutdown ready16.cfg := by
  refine ⟨?_, ?_, ?_, ?_, ?_, ?_, ?_, ?_, ?_, ?_, ?_, ?_, ?_, trivial⟩ <;> decide
/-- MOVE_CURSOR by 3 with CFG.DEBUG = 1, its first frame dropped: four attempts, three of its frames ended. -/
theorem witness_DroppedFrameLetsTheRequestGoOn_debug :
    (Instr.moveCursor 1#8 3#8).wellFormed = true ∧ frameCount ready16.cfg (.moveCursor 1#8 3#8) = 3
    ∧ (after (exec (.moveCursor 1#8 3#8) (debug (retrying 1#16 0#16 [3#8, 3#8, 0#8, 0#8] 0 ready16)))).busy = false
    ∧ (traceOf (.moveCursor 1#8 3#8) (debug (retrying 1#16 0#16 [3#8, 3#8, 0#8, 0#8] 0 ready16))).countP isAttempt = 4
    ∧ (traceOf (.moveCursor 1#8 3#8) (debug (retrying 1#16 0#16 [3#8, 3#8, 0#8, 0#8] 0 ready16))).countP endsFrame = 3 := by
  decide
theorem witness_FrameHasAtMostOnePlusLimitAttempts :
    (∃ t, sendFrame ⟨0#8, 0#8, 0#8, 0#8⟩ (retrying 1#16 0#16 [3#8, 3#8] 0 ready16) = .done t)
    ∧ (∃ t, sendFrame ⟨0#8, 0#8, 0#8, 0#8⟩ (retrying 1#16 0#16 [3#8] 0 ready16) = .blocked t) := ⟨⟨_, rfl⟩, ⟨_, rfl⟩⟩
theorem witness_UnboundedRetryNeverCompletes :
    (stuck (.attempt ⟨0#8, 0#8, 0#8, 0#8⟩ 0#16)).statuses = []
    ∧ (stuck (.attempt ⟨0#8, 0#8, 0#8, 0#8⟩ 0#16)).cfg.retryLimit = 0#16 ∧ ∀ k : Nat, (fun _ => 1#8 : Nat → Byte) k ≠ 0#8 :=
  ⟨by decide, by decide, fun _ => by simp⟩
/-- At the bound: 6 pulses complete Wait(5), 5 do not. -/
theorem witness_WaitCountsOnePulseMoreThanItsMilliseconds :
    (5#16 : Half) ≠ 0#16 ∧ (5#16 : Half).toNat + 1 ≤ (served 0 6 ready16).ticks
    ∧ (served 0 5 ready16).ticks < (5#16 : Half).toNat + 1 ∧ (0#16 : Half) = 0#16 := by decide
theorem witness_SendCmdSendsOneCommandFrame :
    ServedAfter (retrying 1#16 50#16 [7#8, 0#8] 51 ready16) [7#8] [] 0 :=
  ⟨by decide, by decide, by decide, by decide, by decide, by decide⟩
theorem witness_SendCharSendsOneDataFrame :
    ServedAfter (retrying 1#16 50#16 [7#8, 0#8] 51 ready16) [7#8] [] 0 :=
  ⟨by decide, by decide, by decide, by decide, by decide, by decide⟩
theorem witness_SendStringSendsItsPayloadInOrder :
    Served (served 1 0 ready16) (1#8 : Byte).toNat [] 0
    ∧ [0x41#8].length = (1#8 : Byte).toNat := ⟨⟨by decide, by decide, by decide, by decide⟩, by decide⟩
theorem witness_EmptyLoopsSendNothingAndAreOk : State.reset.busy = false ∧ (1#8 : Byte).toNat < 2 := by decide
theorem witness_InitRunsTheSevenSteps :
    Served (served 8 40 ready16) 8 [] 40
    ∧ (3#8 : Byte).toNat < 4
    ∧ waitTicks ready16.par.powerOnMs + 3 * waitTicks ready16.par.initGapMs + waitTicks ready16.par.initClearMs = 40 :=
  ⟨⟨by decide, by decide, by decide, by decide⟩, by decide⟩
/-- INIT waiting with no frame delivered, and at each boundary of 42_init.md R141: three and four, six and seven. -/
theorem witness_InitRunsTheSevenSteps_waiting :
    Served (served 0 40 ready16) 0 [] 40 ∧ Served (served 7 40 ready16) 7 [] 40
    ∧ ([0, 3, 4, 6, 7].map fun k => (after (exec (.init 3#8) (served k 40 ready16))).busy) = List.replicate 5 true
    ∧ ([0, 3, 4, 6, 7].map fun k => (after (exec (.init 3#8) (served k 40 ready16))).initState)
        = [.uninitialized, .uninitialized, .nibbleModeNegotiated, .nibbleModeNegotiated, .configured] :=
  ⟨⟨by decide, by decide, by decide, by decide⟩, ⟨by decide, by decide, by decide, by decide⟩, by decide, by decide⟩
/-- One pulse fewer than INIT's waits count: the last Wait is not over, and INIT_STATE is Configured. -/
theorem witness_InitRunsTheSevenSteps_lastWait :
    Served (served 8 39 ready16) 8 [] (waitTicks ready16.par.powerOnMs + 3 * waitTicks ready16.par.initGapMs)
    ∧ (served 8 39 ready16).ticks < 40
    ∧ (after (exec (.init 3#8) (served 8 39 ready16))).busy = true
    ∧ (after (exec (.init 3#8) (served 8 39 ready16))).initState = .configured :=
  ⟨⟨by decide, by decide, by decide, by decide⟩, by decide, by decide, by decide⟩
theorem witness_ResetScreenResendsTheConfiguration :
    Served (served 5 4 ready16) 5 [] (waitTicks ready16.par.clearSettleMs)
    ∧ (3#8 : Byte).toNat < 4 := ⟨⟨by decide, by decide, by decide, by decide⟩, by decide⟩
theorem witness_ShutdownTurnsOffAndReleases :
    ServedAfter (retrying 1#16 50#16 [7#8, 0#8] 57 ready16) [7#8] [] (waitTicks ready16.par.displayMs) :=
  ⟨by decide, by decide, by decide, by decide, by decide, by decide⟩
/-- Four rows of 20 columns, and one row of none. -/
theorem witness_ClearScreenWritesSpacesToEveryRow :
    Served (served 84 0 (sized 4#3 20#8 ready16)) (4 * (1 + 20)) [] 0
    ∧ GeometryValid (sized 4#3 20#8 ready16).cfg
    ∧ GeometryValid (sized 1#3 0#8 ready16).cfg :=
  ⟨⟨by decide, by decide, by decide, by decide⟩, ⟨by decide, by decide, fun _ => .inr rfl⟩, ⟨by decide, by decide, fun h => absurd h (by decide)⟩⟩
theorem witness_ClearLineWritesSpacesToItsRow :
    Served (served 17 0 ready16) (1 + 16) [] 0
    ∧ RowReachable ready16.cfg.cols 4#8 ∧ RowReachable ready16.cfg.cols 1#8 :=
  ⟨⟨by decide, by decide, by decide, by decide⟩, .inr (.inr ⟨.inr rfl, .inl rfl⟩), .inl rfl⟩
theorem witness_ClearScreenCmdAndHomeSendAndSettle :
    ServedAfter (retrying 1#16 50#16 [7#8, 0#8] 55 ready16) [7#8] [] (waitTicks ready16.par.clearSettleMs)
    ∧ waitTicks ready16.par.homeSettleMs = 4 :=
  ⟨⟨by decide, by decide, by decide, by decide, by decide, by decide⟩, by decide⟩
theorem witness_GotoSendsTheRowAddress :
    ServedAfter (sized 4#3 20#8 (retrying 1#16 50#16 [7#8, 0#8] 51 ready16)) [7#8] [] 0
    ∧ (sized 4#3 20#8 ready16).cfg.cols = 20#8 ∧ ready16.cfg.cols = 16#8 :=
  ⟨⟨by decide, by decide, by decide, by decide, by decide, by decide⟩, by decide⟩
theorem witness_MoveCursorAndScrollRepeatTheirStep :
    Served (served 1 0 ready16) (1#8 : Byte).toNat [] 0
    ∧ 1 ≤ (1#8 : Byte).toNat := ⟨⟨by decide, by decide, by decide, by decide⟩, by decide⟩
theorem witness_ChangeEntryModeSendsAndRecordsTheMode :
    ServedAfter (retrying 1#16 50#16 [7#8, 0#8] 51 ready16) [7#8] [] 0
    ∧ (3#8 : Byte).toNat < 4 := ⟨⟨by decide, by decide, by decide, by decide, by decide, by decide⟩, by decide⟩
theorem witness_CreateCustomCharSendsAddressAndGlyph :
    Served (served 9 0 ready16) 9 [] 0
    ∧ (7#8 : Byte).toNat < 8 ∧ (List.replicate 8 0x1F#8 : List Byte).length = 8 :=
  ⟨⟨by decide, by decide, by decide, by decide⟩, by decide⟩
theorem witness_PrintCustomCharSendsTheSlot :
    ServedAfter (retrying 1#16 50#16 [7#8, 0#8] 51 ready16) [7#8] [] 0
    ∧ (7#8 : Byte).toNat < 8 := ⟨⟨by decide, by decide, by decide, by decide, by decide, by decide⟩, by decide⟩
theorem witness_BacklightSetStoresTheMask : ready16.busy = false ∧ 2 ≤ (2#8 : Byte).toNat := by decide
theorem witness_DisplayOnSendsAndWaits :
    ServedAfter (retrying 1#16 50#16 [7#8, 0#8] 57 ready16) [7#8] [] (waitTicks ready16.par.displayMs)
    ∧ (1#8 : Byte).toNat < 2 := ⟨⟨by decide, by decide, by decide, by decide, by decide, by decide⟩, by decide⟩
/-- SEND_STRING with B = 1 and its two payload bytes; OPEN on an open bus. -/
theorem witness_IllegalRequestOnlySetsItsFlagAndAnswers :
    IllegalWord 0x0001020A#32
    ∧ payloadLen 0x0001020A#32 ≤ ({ ready16 with payload := [1#8, 2#8] } : State).payload.length
    ∧ ready16.busy = false ∧ ready16.busOpen = true := ⟨by unfold IllegalWord; decide, by decide, by decide, by decide⟩
theorem witness_OutOfRangeOperandIsIllegal :
    ready16.busy = false ∧ (Instr.init 4#8).wellFormed = false ∧ (Instr.displayOn 2#8).wellFormed = false := by decide
/-- A row at each bound, and the three ways the geometry fails. -/
theorem witness_InvalidGeometryEndsTheRequest :
    ready16.busy = false ∧ ¬ RowReachable 8#8 3#8 ∧ ¬ RowReachable 16#8 0#8 ∧ ¬ RowReachable 20#8 5#8
    ∧ ¬ GeometryValid (sized 0#3 0#8 ready16).cfg ∧ ¬ GeometryValid (sized 3#3 8#8 ready16).cfg
    ∧ ¬ GeometryValid (sized 5#3 16#8 ready16).cfg := by
  unfold RowReachable GeometryValid; decide
theorem witness_InvalidSlotEndsTheRequestSilently :
    ready16.busy = false ∧ 8 ≤ (8#8 : Byte).toNat
    ∧ 8 ≤ ({ ready16 with payload := List.replicate 8 0#8 } : State).payload.length := by decide
theorem witness_BusNotOpenEndsTheRequestBeforeAnyAction :
    State.reset.busy = false ∧ State.reset.busOpen = false
    ∧ (Instr.sendString 1#8).wellFormed = true ∧ PassesRange (.sendString 1#8) State.reset.cfg
    ∧ wouldSendFrame (.sendString 1#8) = true
    ∧ payloadLen (encode (.sendString 1#8)) ≤ ({ State.reset with payload := [0#8] } : State).payload.length :=
  ⟨by decide, by decide, by decide, trivial, by decide, by decide⟩
/-- A send before Ready, the same send in Ready, and INIT. -/
theorem witness_NotReadyUseIsMarkedExactlyBeforeReady :
    (after (exec (.sendChar 0x41#8) { ready16 with initState := .configured })).fNotReadyUse = true
    ∧ (after (exec (.sendChar 0x41#8) ready16)).fNotReadyUse = false
    ∧ (after (exec (.init 0#8) { ready16 with initState := .configured })).fNotReadyUse = false := by decide
/-- Ready16 meets the invariant: no request is in progress and no frame is in the trace. -/
theorem ready16_inv : Inv ready16 := by
  refine ⟨.inl rfl, by decide, fun _ => rfl, fun h => absurd h (by decide), ?_, ?_, ?_, rfl, ?_, by decide, ?_, ?_,
    fun h => absurd h (by decide), fun h => absurd h (by decide)⟩
  · intro a f st h
    exact absurd h (by simp [ready16, State.reset, State.resetWith])
  · intro f h
    exact absurd h (by simp [ready16, State.reset, State.resetWith, Seq.idle, inFlight])
  · intro h
    exact absurd h (by simp [ready16, State.reset, State.resetWith, Seq.idle])
  · intro h
    exact absurd h (by simp [ready16, State.reset, State.resetWith, Seq.idle])
  · intro h
    exact absurd h (by simp [ready16, State.reset, State.resetWith, Seq.idle, inFlight])
  · intro p h
    exact absurd h (by simp [ready16, State.reset, State.resetWith, Seq.idle])

/-- The invariant does not depend on what is offered. -/
theorem inv_offer {s : State} (h : Inv s) (ws : List ReqWord) (sts : List Byte) (k : Nat) :
    Inv { s with requests := ws, statuses := sts, ticks := k } :=
  ⟨h.mask, h.resp, h.idle, h.waits, h.traceShape, h.flight, h.sending, h.order, h.claiming, h.noClaimLeft, h.sender, h.writers,
    h.initRest, h.initState⟩

/-- A state that meets the invariant, and a step of it that sends a frame. -/
def sending : State := { ready16 with requests := [0x00004109#32], statuses := [0#8], ticks := 0 }

theorem witness_ResetStateMeetsTheInvariant : Inv ready16 := ready16_inv
theorem witness_StepKeepsTheInvariant : Inv sending ∧ ∃ t, step sending = .next t := ⟨inv_offer ready16_inv _ _ _, ⟨_, rfl⟩⟩
/-- A state inside INIT that meets the invariant: the clear frame is in flight, with its Wait and the end left to run. -/
def clearing : State :=
  { ready16 with
    busy := true, initState := .configured, statuses := [0#8], ticks := 6
    seq := { Seq.idle with
      word := 0x303#32, phase := .attempt (encodeByte ready16.par.cmd.clear false ready16.blMask) 0#16
      todo := [.wait ready16.par.initClearMs, .setInitState .ready] } }
theorem clearing_inv : Inv clearing where
  mask := .inl rfl
  resp := by decide
  idle h := absurd h (by decide)
  waits _ := by decide
  traceShape a f st h := by cases h
  flight f h := by cases h; decide
  sending _ := rfl
  order := rfl
  claiming h := by cases h
  noClaimLeft := by decide
  sender _ := rfl
  writers := by decide
  initRest _ _ := ⟨3#2, (initBody ready16.par 3#2).take 16, .sendCmd ready16.par.cmd.clear, rfl, .inl ⟨⟨_, rfl⟩, _, rfl⟩⟩
  initState _ _ := rfl
theorem witness_StepKeepsTheInvariant_init :
    Inv clearing ∧ (∃ t, step clearing = .next t)
    ∧ (after (step clearing)).busy = false ∧ (after (step clearing)).initState = .ready := ⟨clearing_inv, ⟨_, rfl⟩, by decide⟩
theorem witness_NoStepWritesTheConfiguration : ∃ t, step sending = .next t := ⟨_, rfl⟩
/-- A state that offers the word `w`. -/
def offering (w : ReqWord) (sts : List Byte) (k : Nat) (s : State) : State :=
  { s with requests := [w], statuses := sts, ticks := k }
/-- Steps that write each of the registers. -/
theorem witness_RegistersAreWrittenOnlyByTheirRequests :
    Inv { ready16 with requests := [0x10#32], statuses := [], ticks := 0 }
    ∧ (after (step { ready16 with requests := [0x10#32], statuses := [], ticks := 0 })).blMask ≠ ready16.blMask
    ∧ (after (step { ready16 with requests := [0x02#32], statuses := [], ticks := 0 })).busOpen ≠ ready16.busOpen
    ∧ (after (step { ready16 with requests := [0x13#32], statuses := [0#8], ticks := 6 })).initState ≠ ready16.initState
    ∧ (after (step { ready16 with requests := [0x104#32], statuses := [0#8, 0#8, 0#8], ticks := 0 })).cursorType
        ≠ ready16.cursorType
    ∧ (after (step { ready16 with requests := [0x00D#32], statuses := [0#8], ticks := 0 })).entryMode ≠ ready16.entryMode :=
  ⟨inv_offer ready16_inv _ _ _, by decide, by decide, by decide, by decide, by decide⟩
/-- Steps that set each of the flags: an illegal word and OPEN on an open bus; SEND_CHAR on a closed bus, before Ready, and
dropped; a claim refused; GOTO row 5; slot 8. -/
theorem witness_RegistersAreWrittenOnlyByTheirRequests_flags :
    (after (step (offering 0xFF#32 [] 0 ready16))).fIllegalRequest ≠ ready16.fIllegalRequest
    ∧ (after (step (offering 0x01#32 [] 0 ready16))).fIllegalRequest ≠ ready16.fIllegalRequest
    ∧ (after (step (offering 0x4109#32 [] 0 { ready16 with busOpen := false }))).fBusNotOpen ≠ ready16.fBusNotOpen
    ∧ (after (step (offering 0x4109#32 [0#8] 0 { ready16 with initState := .configured }))).fNotReadyUse
        ≠ ready16.fNotReadyUse
    ∧ (after (step (offering 0x4109#32 [3#8, 3#8] 0 (retrying 1#16 0#16 [] 0 ready16)))).fFrameDropped
        ≠ ready16.fFrameDropped
    ∧ (after (step (offering 0x01#32 [] 0 { State.reset with claims := [false] }))).fBusUnavailable
        ≠ State.reset.fBusUnavailable
    ∧ (after (step (offering 0x0508#32 [] 0 ready16))).wInvalidGeometry ≠ ready16.wInvalidGeometry
    ∧ (after (step (offering 0x080F#32 [] 0 ready16))).wInvalidSlot ≠ ready16.wInvalidSlot := by decide
theorem witness_StickyFlagsAreOnlySetAndTraceOnlyGrows : ∃ t, step { sending with fBusNotOpen := true } = .next t := ⟨_, rfl⟩
theorem witness_ErrcntCountsEveryFailedAttempt :
    (after (step { sending with errcnt := 0xFFFFFFFE#32, statuses := [1#8, 2#8, 0#8], ticks := 102 })).errcnt
    = 0xFFFFFFFF#32 ∧ ∃ t, step sending = .next t := ⟨by decide, ⟨_, rfl⟩⟩
/-- A request that completes in its step, and one that waits. -/
theorem witness_EveryRequestAnswersOnceAsItCompletes :
    sending.requests ≠ [] ∧ (after (step sending)).busy = false
    ∧ (after (step { sending with statuses := [] })).busy = true := by decide
theorem witness_AttemptsOnlyOnAnOpenBusToCfgAddr :
    Inv sending ∧ ∃ t, step sending = .next t
    ∧ ((after (step sending)).trace.countP isAttempt = 1) := ⟨inv_offer ready16_inv _ _ _, _, rfl, by decide⟩
theorem witness_DebugFlagOnlyAddsLogEvents : sending.cfg.debug = false ∧ ∃ t, step sending = .next t := ⟨by decide, _, rfl⟩
theorem witness_FramesAndWaitsOfEveryRequest :
    Instr.shutdown ≠ .openBus ∧ Instr.shutdown.wellFormed = true ∧ PassesRange .shutdown ready16.cfg
    ∧ payloadLen (encode .shutdown) ≤ ready16.payload.length
    ∧ Served (served 1 6 ready16) (frameCount ready16.cfg .shutdown) [] ((waitsOf ready16.par .shutdown).map waitTicks).sum :=
  ⟨by decide, by decide, trivial, by decide, ⟨by decide, by decide, by decide, by decide⟩⟩
theorem witness_BoundedRetryRequestsComplete :
    (retrying 1#16 0#16 [3#8, 3#8] 0 ready16).busy = false
    ∧ (retrying 1#16 0#16 [3#8, 3#8] 0 ready16).cfg.retryLimit ≠ 0#16
    ∧ ({ ready16 with claims := [true] } : State).claims ≠ [] ∧ payloadLen (encode (.sendChar 0#8)) ≤ 0
    ∧ frameCount ready16.cfg (.sendChar 0#8) * (1 + (1#16 : Half).toNat) ≤ [3#8, 3#8].length
    ∧ frameCount ready16.cfg (.sendChar 0#8) * (1#16 : Half).toNat * waitTicks 0#16
        + ((waitsOf ready16.par (.sendChar 0#8)).map waitTicks).sum ≤ 0 := by decide

end Sys2Proof.Tests
end

section
/-! PROOFS. The state's family: the registers at reset (10_state.md R36, with R31's transient state) and the status port
(R35). -/

namespace Sys2Proof.Machine

/-! ## The transient state of an idle block -/

/-- Acceptance overwrites the transient state (10_state.md R31), so a request meets none of what an idle block held there. -/
theorem request_seq_irrelevant {s : State} (h : s.busy = false) (p : Plan) (q : Seq) :
    request p { s with seq := q } = request p s := by
  have haccept : accept p.word { s with seq := q } = accept p.word s := rfl
  rw [request_idle h, request_idle (s := { s with seq := q }) h, haccept]

/-- No request's plan is made from the transient state: each arm of `exec` builds the same plan with it and without. -/
theorem exec_seq_irrelevant {s : State} (h : s.busy = false) (i : Instr) (q : Seq) :
    exec i { s with seq := q } = exec i s := by
  cases i <;> exact request_seq_irrelevant h _ q

@[simp] theorem resetWith_blMask (c : Cfg) (p : Params) : (State.resetWith c p).blMask = blMaskOf c.blInit := rfl

/-- Settles O13: each register by the definition of the reset state, the transient state by `exec_seq_irrelevant`. -/
theorem resetTakesTheSpecValues : Obligations.ResetTakesTheSpecValues := by
  intro c p
  have hon (h : c.blInit = true) : (State.resetWith c p).blMask = 0x0F#8 := by
    rw [resetWith_blMask, h]; rfl
  have hoff (h : c.blInit = false) : (State.resetWith c p).blMask = 0x07#8 := by
    rw [resetWith_blMask, h]; rfl
  have hidle : (State.resetWith c p).busy = false := rfl
  exact ⟨rfl, hon, hoff, rfl, rfl, rfl, rfl, rfl, rfl, rfl, rfl, rfl, rfl, rfl, rfl, rfl, rfl, rfl, hidle,
    exec_seq_irrelevant hidle⟩

/-! ## The status port -/

section
variable (s : State)

@[simp] theorem statusRead_status : statusRead 0#3 s = statusWord s := rfl
@[simp] theorem statusRead_errcnt : statusRead 1#3 s = s.errcnt := rfl
@[simp] theorem statusRead_geometry : statusRead 2#3 s = 0#16 ++ s.cfg.cols ++ 0#5 ++ s.cfg.rows := rfl
@[simp] theorem statusRead_bus : statusRead 3#3 s = s.cfg.speed ++ 0#9 ++ s.cfg.addr := rfl
@[simp] theorem statusRead_retry : statusRead 4#3 s = s.cfg.retryDelayMs ++ s.cfg.retryLimit := rfl
@[simp] theorem statusRead_misc :
    statusRead 5#3 s = 0#30 ++ BitVec.ofBool s.cfg.blInit ++ BitVec.ofBool s.cfg.debug := rfl
@[simp] theorem statusRead_blMask : statusRead 6#3 s = 0#24 ++ s.blMask := rfl
@[simp] theorem statusRead_reserved : statusRead 7#3 s = 0#32 := rfl

/-- The fields of STATUS wider than one bit, and its unlisted bits: the concatenation is walked from its low end, each part
below the field taken off its offset. -/
theorem statusWord_fields :
    (statusWord s).extractLsb' 0 2 = initCode s.initState ∧ (statusWord s).extractLsb' 12 2 = s.cursorType
    ∧ (statusWord s).extractLsb' 15 2 = s.entryMode ∧ (statusWord s).extractLsb' 18 3 = s.lastResp
    ∧ (statusWord s).extractLsb' 21 11 = 0#11 := by
  and_intros <;> simp (disch := decide) only [statusWord, BitVec.extractLsb'_append_eq_of_le,
    BitVec.extractLsb'_append_eq_of_add_le, Nat.reduceSub, BitVec.extractLsb'_eq_self]

/-- The one-bit fields of STATUS that show the engine: the bus, BUSY, the backlight and the two valid bits. -/
theorem statusWord_bits :
    (statusWord s).getLsbD 2 = s.busOpen ∧ (statusWord s).getLsbD 3 = s.busy
    ∧ (statusWord s).getLsbD 4 = (s.blMask == blOnMask) ∧ (statusWord s).getLsbD 14 = s.ctValid
    ∧ (statusWord s).getLsbD 17 = s.emValid := by
  and_intros <;> simp only [statusWord, BitVec.getLsbD_append] <;> simp

/-- The sticky flags in STATUS (10_state.md R26, R27). -/
theorem statusWord_flags :
    (statusWord s).getLsbD 5 = s.fBusUnavailable ∧ (statusWord s).getLsbD 6 = s.fIllegalRequest
    ∧ (statusWord s).getLsbD 7 = s.fBusNotOpen ∧ (statusWord s).getLsbD 8 = s.fNotReadyUse
    ∧ (statusWord s).getLsbD 9 = s.fFrameDropped ∧ (statusWord s).getLsbD 10 = s.wInvalidGeometry
    ∧ (statusWord s).getLsbD 11 = s.wInvalidSlot := by
  and_intros <;> simp only [statusWord, BitVec.getLsbD_append] <;> simp

theorem statusRead_geometry_fields :
    (statusRead 2#3 s).extractLsb' 0 3 = s.cfg.rows ∧ (statusRead 2#3 s).extractLsb' 3 5 = 0#5
    ∧ (statusRead 2#3 s).extractLsb' 8 8 = s.cfg.cols ∧ (statusRead 2#3 s).extractLsb' 16 16 = 0#16 := by
  and_intros <;> simp (disch := decide) only [statusRead_geometry, BitVec.extractLsb'_append_eq_of_le,
    BitVec.extractLsb'_append_eq_of_add_le, Nat.reduceSub, BitVec.extractLsb'_eq_self]

theorem statusRead_bus_fields :
    (statusRead 3#3 s).extractLsb' 0 7 = s.cfg.addr ∧ (statusRead 3#3 s).extractLsb' 7 9 = 0#9
    ∧ (statusRead 3#3 s).extractLsb' 16 16 = s.cfg.speed := by
  and_intros <;> simp (disch := decide) only [statusRead_bus, BitVec.extractLsb'_append_eq_of_le,
    BitVec.extractLsb'_append_eq_of_add_le, Nat.reduceSub, BitVec.extractLsb'_eq_self]

theorem statusRead_retry_fields :
    (statusRead 4#3 s).extractLsb' 0 16 = s.cfg.retryLimit
    ∧ (statusRead 4#3 s).extractLsb' 16 16 = s.cfg.retryDelayMs :=
  ⟨BitVec.extractLsb'_append_eq_right, BitVec.extractLsb'_append_eq_left⟩

theorem statusRead_misc_fields :
    (statusRead 5#3 s).getLsbD 0 = s.cfg.debug ∧ (statusRead 5#3 s).getLsbD 1 = s.cfg.blInit
    ∧ (statusRead 5#3 s).extractLsb' 2 30 = 0#30 := by
  refine ⟨?debug, ?blInit, ?unlisted⟩
  case debug => simp only [statusRead_misc, BitVec.getLsbD_append]; simp
  case blInit => simp only [statusRead_misc, BitVec.getLsbD_append]; simp
  case unlisted => simp (disch := decide) only [statusRead_misc, BitVec.extractLsb'_append_eq_of_le, Nat.reduceSub,
    BitVec.extractLsb'_eq_self]

theorem statusRead_blMask_fields :
    (statusRead 6#3 s).extractLsb' 0 8 = s.blMask ∧ (statusRead 6#3 s).extractLsb' 8 24 = 0#24 :=
  ⟨BitVec.extractLsb'_append_eq_right, BitVec.extractLsb'_append_eq_left⟩

end

/-- Settles O15, address by address: each read is a concatenation of its fields. -/
theorem statusPortReadsTheRegisters : Obligations.StatusPortReadsTheRegisters := by
  intro s
  obtain ⟨hinit, hcursor, hentry, hresp, hunlisted⟩ := statusWord_fields s
  obtain ⟨hopen, hbusy, hbl, hct, hem⟩ := statusWord_bits s
  obtain ⟨hunavailable, hillegal, hnotopen, hnotready, hdropped, hgeometry, hslot⟩ := statusWord_flags s
  have hblOn : (statusWord s).getLsbD 4 = true ↔ s.blMask = 0x0F#8 := by rw [hbl, beq_iff_eq, blOnMask]
  obtain ⟨hrows, hrows0, hcols, hcols0⟩ := statusRead_geometry_fields s
  obtain ⟨haddr, haddr0, hspeed⟩ := statusRead_bus_fields s
  obtain ⟨hlimit, hdelay⟩ := statusRead_retry_fields s
  obtain ⟨hdebug, hblInit, hmisc0⟩ := statusRead_misc_fields s
  obtain ⟨hmask, hmask0⟩ := statusRead_blMask_fields s
  exact ⟨⟨rfl, rfl, rfl, rfl⟩, hinit, hopen, hbusy, hblOn, hunavailable, hillegal, hnotopen, hnotready, hdropped, hgeometry,
    hslot, hcursor, hct, hentry, hem, hresp, hunlisted, statusRead_errcnt s, hrows, hrows0, hcols, hcols0, haddr, haddr0,
    hspeed, hlimit, hdelay, hdebug, hblInit, hmisc0, hmask, hmask0, statusRead_reserved s⟩

end Sys2Proof.Machine
end

section
/-! PROOFS. The memory family: the DDRAM-address-set byte of a row (20_memory.md R53). -/

namespace Sys2Proof.Machine

/-! ## The DDRAM address of a row -/

/-- RowAddr is defined on reachable rows only: rows 3 and 4 reach its last branches with neither 20 nor 16 columns. -/
theorem rowAddr_none {cols row : Byte} (h : ¬ RowReachable cols row) (col : Byte) : rowAddr? cols row col = none := by
  obtain ⟨h1, h2, h34⟩ : row ≠ 1#8 ∧ row ≠ 2#8 ∧ ¬ ((row = 3#8 ∨ row = 4#8) ∧ (cols = 16#8 ∨ cols = 20#8)) := by
    simpa only [RowReachable, not_or] using h
  rw [rowAddr?, if_neg h1, if_neg h2]
  by_cases hrow : row = 3#8 ∨ row = 4#8
  case pos =>
    obtain ⟨h16, h20⟩ : cols ≠ 16#8 ∧ cols ≠ 20#8 := not_or.mp fun hcols => h34 ⟨hrow, hcols⟩
    simp only [if_neg h16, if_neg h20, ite_self]
  case neg =>
    obtain ⟨h3, h4⟩ := not_or.mp hrow
    rw [if_neg h3, if_neg h4]

theorem rowAddr_eq_none_iff (cols row col : Byte) : rowAddr? cols row col = none ↔ ¬ RowReachable cols row := by
  refine ⟨fun hnone hreach => ?_, fun h => rowAddr_none h col⟩
  obtain ⟨a, ha⟩ := rowAddr_some hreach col
  cases hnone.symm.trans ha

/-- Settles O18: the six addresses are branches of `rowAddr?`; its domain is `rowAddr_eq_none_iff`. -/
theorem rowAddressOfEveryRowAndWidth : Obligations.RowAddressOfEveryRowAndWidth := by
  intro cols row col
  refine ⟨?row1, ?row2, ?row3of20, ?row3of16, ?row4of20, ?row4of16, rowAddr_eq_none_iff cols row col,
    rowAddressable_iff cols row⟩
  case row1 => rintro rfl; rfl
  case row2 => rintro rfl; rfl
  case row3of20 => rintro rfl rfl; rfl
  case row3of16 => rintro rfl rfl; rfl
  case row4of20 => rintro rfl rfl; rfl
  case row4of16 => rintro rfl rfl; rfl

end Sys2Proof.Machine
end

section
/-! PROOFS. The encoding family: the fields and the payload length of a request word (30_encoding.md R74), and what an
illegal word does (30_encoding.md R82; 60_exceptions.md R205). -/

namespace Sys2Proof

/-! ## The payload length -/

theorem payloadLen_sendString {w : ReqWord} (h : reqOpc w = 0x0A#8) : payloadLen w = (reqA w).toNat := if_pos h

theorem payloadLen_createCustomChar {w : ReqWord} (h : reqOpc w = 0x0E#8) : payloadLen w = 8 := by
  rw [payloadLen, if_neg (by rw [h]; decide), if_pos h]

theorem payloadLen_other {w : ReqWord} (hstring : reqOpc w ≠ 0x0A#8) (hglyph : reqOpc w ≠ 0x0E#8) : payloadLen w = 0 := by
  rw [payloadLen, if_neg hstring, if_neg hglyph]

/-! ## What the decoder accepts -/

theorem decode_of_rsv_ne {w : ReqWord} (h : reqRsv w ≠ 0#8) : decode w = .error .rsvNotZero := if_pos h

theorem decode_ok {w : ReqWord} {i : Instr} (h : decode w = .ok i) :
    reqRsv w = 0#8 ∧ decodeFields (reqOpc w) (reqA w) (reqB w) = .ok i := by
  by_cases hrsv : reqRsv w = 0#8
  case pos => exact ⟨hrsv, by rwa [decode, if_neg (not_not_intro hrsv)] at h⟩
  case neg => cases (decode_of_rsv_ne hrsv).symm.trans h

section
variable {bound : Nat} {a b opc : Byte} {i j : Instr}

theorem noOperand_ok_iff : noOperand a b i = .ok j ↔ (a = 0#8 ∧ b = 0#8) ∧ i = j := by
  unfold noOperand
  split_ifs with h <;> simp [h]

theorem operandA_ok_iff {mk : Byte → Instr} :
    operandA bound a b mk = .ok j ↔ (a.toNat < bound ∧ b = 0#8) ∧ mk a = j := by
  unfold operandA
  split_ifs with hb ha
  · simp [hb]
  · simp [ha, not_not.mp hb]
  · simp [ha]

theorem operandAB_ok_iff {mk : Byte → Byte → Instr} : operandAB bound a b mk = .ok j ↔ a.toNat < bound ∧ mk a b = j := by
  unfold operandAB
  split_ifs with h <;> simp [h]

/-- What holds of the fields in every row of 30_encoding.md R75: the complement of R82's items, RSV's aside. -/
theorem decodeFields_ok (h : decodeFields opc a b = .ok i) :
    opc ≠ 0x00#8 ∧ opc.toNat < 0x15
    ∧ (opc ∈ [0x01#8, 0x02#8, 0x05#8, 0x06#8, 0x07#8, 0x13#8] → a = 0#8)
    ∧ (opc ∉ [0x08#8, 0x0B#8, 0x0C#8] → b = 0#8)
    ∧ (opc ∈ [0x03#8, 0x04#8, 0x0D#8] → a.toNat < 4)
    ∧ (opc ∈ [0x0B#8, 0x0C#8, 0x10#8, 0x11#8] → a.toNat < 2) := by
  unfold decodeFields at h
  split at h
  case h_21 => cases h
  all_goals next hopc =>
    simp only [noOperand_ok_iff, operandA_ok_iff, operandAB_ok_iff] at h
    simp [← BitVec.toNat_inj, hopc, h]

end

/-- Settles O5: the fields are read back by `reqOpc_append` and its like, and the rest are clauses about the fields. -/
theorem requestWordFieldsAndPayloadLength : Obligations.RequestWordFieldsAndPayloadLength := by
  intro rsv b a opc
  have hopc := reqOpc_append rsv b a opc
  have hA := reqA_append rsv b a opc
  have hrsv := reqRsv_append rsv b a opc
  refine ⟨hopc, hA, reqB_append rsv b a opc, hrsv, ?refused, ?string, ?glyph, ?other⟩
  case refused => exact fun h => decode_of_rsv_ne (hrsv.trans_ne h)
  case string => exact fun h => (payloadLen_sendString (hopc.trans h)).trans (congrArg BitVec.toNat hA)
  case glyph => exact fun h => payloadLen_createCustomChar (hopc.trans h)
  case other => exact fun hstring hglyph => payloadLen_other (hopc.trans_ne hstring) (hopc.trans_ne hglyph)

namespace Machine

/-! ## Illegal words -/

/-- The items of 30_encoding.md R82 deny, one by one, what `decode_ok` and `decodeFields_ok` say of a legal word. -/
theorem IllegalWord.not_decode_ok {w : ReqWord} (h : IllegalWord w) (i : Instr) : decode w ≠ .ok i := by
  intro hok
  obtain ⟨hrsv, hfields⟩ := decode_ok hok
  obtain ⟨hzero, hlast, hA, hB, hfour, htwo⟩ := decodeFields_ok hfields
  rcases h with h | h | h | ⟨hopc, h⟩ | ⟨hopc, h⟩ | ⟨hopc, h⟩ | ⟨hopc, h⟩
  · exact hzero h
  · exact Nat.not_lt.mpr h hlast
  · exact h hrsv
  · exact h (hA hopc)
  · exact h (hB hopc)
  · exact Nat.not_lt.mpr h (hfour hopc)
  · exact Nat.not_lt.mpr h (htwo hopc)

theorem runWord_illegal {w : ReqWord} (h : IllegalWord w) (s : State) : runWord w s = illegalWord w s := by
  cases hw : decode w with
  | ok i => exact absurd hw (h.not_decode_ok i)
  | error e => simp [runWord, hw]

/-! ## A request that a check ends -/

/-- A discarded payload, all of it offered, only leaves the payload port (30_encoding.md R73). -/
theorem run_dropPayload (n : Nat) (s : State) (h : n ≤ s.payload.length) :
    run (List.replicate n .dropPayload) s = complete { s with payload := s.payload.drop n } := by
  induction n generalizing s with
  | zero => rfl
  | succ n ih =>
    cases hp : s.payload with
    | nil => simp [hp] at h
    | cons b rest =>
      have hdrop : runPrim .dropPayload s = .done { s with payload := rest } := by simp [runPrim, dropNextPayload, hp]
      rw [List.replicate_succ, run_cons_done hdrop, ih { s with payload := rest } (by simpa [hp] using h)]
      rfl

/-- The events of a raise: the LOG its error has, when CFG.DEBUG = 1 (60_exceptions.md R200, R213). -/
def raiseEvents (debug : Bool) (e : ErrorKind) (info : Half) : List Event :=
  match errorLog e with
  | some k => logEvents debug k info
  | none => []

theorem raiseError_eq (e : ErrorKind) (info : Half) (s : State) : raiseError e info s = setErrorFlag e
    { s with trace := s.trace ++ raiseEvents s.cfg.debug e info, seq := { s.seq with raised := some e } } := by
  cases e <;> simp [raiseError, setErrorFlag, errorLog, raiseEvents, logEvents, logEvent_eq]

/-- A request ended by a check sets its error's flag, logs, consumes its payload and answers (60_exceptions.md R203). -/
theorem endWith_accept (e : ErrorKind) (info : Half) {w : ReqWord} {s : State} (hidle : s.busy = false)
    (hpayload : payloadLen w ≤ s.payload.length) :
    endWith e info w (accept w s) =
      setErrorFlag e (afterRaise s (raiseEvents s.cfg.debug e info) (errorCode e) (payloadLen w)) := by
  rw [endWith, run_dropPayload _ _ (by simpa using hpayload), raiseError_eq]
  cases e <;> simp [complete, emit, respCode, setErrorFlag, afterRaise, hidle]

/-- A request that fails check 1 (60_exceptions.md R202, R205). -/
theorem request_illegal {p : Plan} {s : State} (hidle : s.busy = false) (hillegal : p.illegal = true)
    (hpayload : payloadLen p.word ≤ s.payload.length) :
    request p s = .next { afterRaise s (logEvents s.cfg.debug .illegalRequest (wordInfo p.word)) 1#3 (payloadLen p.word) with
      fIllegalRequest := true } := by
  rw [request_idle hidle, checked, if_pos hillegal, endWith_accept _ _ hidle hpayload]
  rfl

/-- An idle block runs the word offered to it (30_encoding.md R71). -/
theorem step_idle {s : State} {w : ReqWord} {ws : List ReqWord} (hidle : s.busy = false) (hoffered : s.requests = w :: ws) :
    step s = runWord w { s with requests := ws } := by
  simp [step, hidle, hoffered]

theorem exec_openBus (s : State) : exec .openBus s = execOpenBus s := rfl

/-- Settles O43: both requests fail check 1, and `request_illegal` says what that does. -/
theorem illegalRequestOnlySetsItsFlagAndAnswers : Obligations.IllegalRequestOnlySetsItsFlagAndAnswers := by
  constructor
  case left =>
    intro w ws s hidle hoffered hillegal hpayload
    refine ⟨Seq.idle, ?_⟩
    rw [step_idle hidle hoffered, runWord_illegal hillegal]
    exact request_illegal (s := { s with requests := ws }) hidle rfl hpayload
  case right =>
    intro s hidle hopen
    refine ⟨Seq.idle, ?_⟩
    have hlen : payloadLen (encode .openBus) = 0 := by decide
    have hinfo : wordInfo (encode .openBus) = 0x0001#16 := by decide
    rw [exec_openBus, execOpenBus, request_illegal hidle hopen (by simp [hlen]), hlen, hinfo]
    rfl

end Machine
end Sys2Proof
end


section
/-! PROOFS. The transport family: the claim and the release of the bus (40_transport.md R100, R102), SendFrame with its
retries (R105), and its infinite run when there is no limit (R107). -/

namespace Sys2Proof.Machine

/-! ## The counters of SendFrame -/

/-- The value of the saturating 16-bit retry counter after `k` retries (40_transport.md R105). -/
def retryCount (k : Nat) : Half := BitVec.ofNat 16 (min k 0xFFFF)

theorem toNat_retryCount (k : Nat) : (retryCount k).toNat = min k 0xFFFF :=
  Nat.mod_eq_of_lt (by omega)

theorem retryCount_toNat (n : Half) : retryCount n.toNat = n := by
  rw [← BitVec.toNat_inj, toNat_retryCount]
  omega

theorem satInc16_retryCount (k : Nat) : satInc16 (retryCount k) = retryCount (k + 1) := by
  unfold satInc16
  split_ifs with hmax <;>
    simp only [← BitVec.toNat_inj, BitVec.toNat_add, BitVec.toNat_ofNat, toNat_retryCount] at hmax ⊢ <;> omega

theorem capByte_retryCount (k : Nat) : capByte (retryCount k) = BitVec.ofNat 8 (min k 255) := by
  have hk := toNat_retryCount k
  unfold capByte
  split_ifs with hsmall
  · rw [← BitVec.toNat_inj, BitVec.toNat_setWidth, BitVec.toNat_ofNat, hk]
    omega
  · rw [show min k 255 = 255 by omega]

theorem satInc32_eq_satAdd32 (x : BitVec 32) : satInc32 x = satAdd32 x 1 := by
  unfold satInc32 satAdd32
  split_ifs with hmax <;>
    simp only [← BitVec.toNat_inj, BitVec.toNat_add, BitVec.toNat_ofNat] at hmax ⊢ <;> omega

theorem satAdd32_zero (x : BitVec 32) : satAdd32 x 0 = x := by
  unfold satAdd32
  rw [← BitVec.toNat_inj, BitVec.toNat_ofNat]
  omega

theorem satAdd32_satAdd32 (x : BitVec 32) (j k : Nat) : satAdd32 (satAdd32 x j) k = satAdd32 x (j + k) := by
  unfold satAdd32
  simp only [← BitVec.toNat_inj, BitVec.toNat_ofNat]
  omega

/-! ## SendFrame after failed attempts -/

/-- A Wait whose pulses all arrive (70_reset_and_hazards.md R250). -/
theorem doWait_done {d : Half} {s : State} (ph : Nat → Phase) (h : waitTicks d ≤ s.ticks) : doWait d ph s =
    .done { s with trace := s.trace ++ waitEvents d, ticks := s.ticks - waitTicks d } := by
  unfold doWait waitEvents
  unfold waitTicks at *
  split_ifs at * with hd
  · simp
  · simp [countTicks, h, emit]

/-- The state after the failed attempts `fails` of `f`, a retry and its delay following each, with `k` retries before them
and the answers `more` left (40_transport.md R105). -/
def afterFails (f : Frame) (k : Nat) (fails more : List Byte) (s : State) : State :=
  { s with
    trace := s.trace ++ retryEvents s.cfg f k fails, statuses := more
    ticks := s.ticks - fails.length * waitTicks s.cfg.retryDelayMs, errcnt := satAdd32 s.errcnt fails.length }

theorem retryEvents_cons (c : Cfg) (f : Frame) (k : Nat) (st : Byte) (sts : List Byte) :
    retryEvents c f k (st :: sts) = retryEvents c f k [st] ++ retryEvents c f (k + 1) sts := by
  simp [retryEvents]

theorem afterFails_nil (f : Frame) (k : Nat) (s : State) : afterFails f k [] s.statuses s = s := by
  simp [afterFails, retryEvents, satAdd32_zero]

theorem afterFails_cons (f : Frame) (k : Nat) (st : Byte) (sts more : List Byte) (s : State) :
    afterFails f (k + 1) sts more (afterFails f k [st] (sts ++ more) s) = afterFails f k (st :: sts) more s := by
  simp only [afterFails, retryEvents_cons s.cfg f k st sts, satAdd32_satAdd32, List.append_assoc, List.length_cons,
    List.length_nil, Nat.sub_sub, ← Nat.add_mul, Nat.add_comm]

/-- One failed attempt with a retry left: it is counted and logged, and the loop goes on after the delay. -/
theorem attempts_retry {f : Frame} {k : Nat} {st : Byte} {rest : List Byte} {s : State} (hfail : st ≠ 0#8)
    (hlimit : s.cfg.retryLimit = 0#16 ∨ retryCount k ≠ s.cfg.retryLimit)
    (hticks : waitTicks s.cfg.retryDelayMs ≤ s.ticks) :
    attempts f (st :: rest) (retryCount k) s = attempts f rest (retryCount (k + 1)) (afterFails f k [st] rest s) := by
  have hagain : ¬ (s.cfg.retryLimit ≠ 0#16 ∧ retryCount k = s.cfg.retryLimit) := by tauto
  rw [attempts, if_neg hfail, if_neg hagain, doWait_done _ (by simpa using hticks), satInc16_retryCount,
    capByte_retryCount, logEvent_eq]
  simp [afterFails, retryEvents, logEvents, countFailure, answered, emit, satInc32_eq_satAdd32]

/-- Below the limit the counter has not reached it: it is exact up to 0xFFFF, and the limit is no larger. -/
theorem retryCount_ne_of_lt {limit : Half} {k : Nat} (h : k < limit.toNat) : retryCount k ≠ limit := by
  rintro rfl
  rw [toNat_retryCount] at h
  omega

/-- SendFrame's loop goes through failed attempts that the limit allows to retry, to the answers after them. -/
theorem attempts_fails {f : Frame} {more fails : List Byte} {k : Nat} {s : State} (hstatuses : s.statuses = fails ++ more)
    (hfail : ∀ st ∈ fails, st ≠ 0#8) (hlimit : s.cfg.retryLimit = 0#16 ∨ k + fails.length ≤ s.cfg.retryLimit.toNat)
    (hticks : fails.length * waitTicks s.cfg.retryDelayMs ≤ s.ticks) :
    attempts f (fails ++ more) (retryCount k) s =
      attempts f more (retryCount (k + fails.length)) (afterFails f k fails more s) := by
  induction fails generalizing k s with
  | nil => rw [← show s.statuses = more from hstatuses, afterFails_nil]; rfl
  | cons st sts ih =>
    obtain ⟨hst, hsts⟩ := List.forall_mem_cons.mp hfail
    rw [List.length_cons] at hlimit hticks ⊢
    rw [Nat.succ_mul] at hticks
    have hnow : s.cfg.retryLimit = 0#16 ∨ retryCount k ≠ s.cfg.retryLimit :=
      hlimit.imp_right fun h => retryCount_ne_of_lt (by omega)
    have hlater : s.cfg.retryLimit = 0#16 ∨ k + 1 + sts.length ≤ s.cfg.retryLimit.toNat := hlimit.imp_right (by omega)
    have hleft : sts.length * waitTicks s.cfg.retryDelayMs ≤ (afterFails f k [st] (sts ++ more) s).ticks := by
      simp only [afterFails, List.length_singleton, Nat.one_mul]
      omega
    rw [List.cons_append, attempts_retry hst hnow (by omega),
      ih (s := afterFails f k [st] (sts ++ more) s) rfl hsts hlater hleft, afterFails_cons, Nat.add_assoc, Nat.add_comm 1]

/-- `attempts_fails` from the start of SendFrame, where no retry has been made. -/
theorem sendFrame_fails {f : Frame} {more fails : List Byte} {s : State} (hstatuses : s.statuses = fails ++ more)
    (hfail : ∀ st ∈ fails, st ≠ 0#8) (hlimit : s.cfg.retryLimit = 0#16 ∨ fails.length ≤ s.cfg.retryLimit.toNat)
    (hticks : fails.length * waitTicks s.cfg.retryDelayMs ≤ s.ticks) :
    sendFrame f s = attempts f more (retryCount fails.length) (afterFails f 0 fails more s) := by
  have h := attempts_fails (f := f) (k := 0) hstatuses hfail (by rwa [Nat.zero_add]) hticks
  rwa [Nat.zero_add, ← hstatuses] at h

/-- An attempt that succeeds ends the loop. -/
theorem attempts_success (f : Frame) (rest : List Byte) (n : Half) (s : State) :
    attempts f (0#8 :: rest) n s = .done (answered f 0#8 rest s) := if_pos rfl

/-- A failed attempt at the limit drops the frame. -/
theorem attempts_drop {f : Frame} {st : Byte} {rest : List Byte} {n : Half} {s : State} (hfail : st ≠ 0#8)
    (hbounded : s.cfg.retryLimit ≠ 0#16) (hspent : n = s.cfg.retryLimit) :
    attempts f (st :: rest) n s = .done (dropFrame st (countFailure (answered f st rest s))) := by
  rw [attempts, if_neg hfail, if_pos ⟨hbounded, hspent⟩]

/-- Settles O21: both clauses go through the failed attempts by `sendFrame_fails`, then answer the last one. -/
theorem sendFrameRetriesThenSucceedsOrDrops : Obligations.SendFrameRetriesThenSucceedsOrDrops := by
  intro f s fails rest hfail hticks
  constructor
  case left =>
    intro hstatuses hlimit
    rw [sendFrame_fails hstatuses hfail hlimit hticks, attempts_success]
    rfl
  case right =>
    intro st hstatuses hst hbounded hspent
    have hcount : retryCount fails.length = s.cfg.retryLimit := by rw [hspent, retryCount_toNat]
    rw [sendFrame_fails hstatuses hfail (.inr hspent.le) hticks,
      attempts_drop (s := afterFails f 0 fails (st :: rest) s) hst hbounded hcount, dropFrame, logEvent_eq]
    simp [afterFails, countFailure, answered, emit, logEvents, satInc32_eq_satAdd32, satAdd32_satAdd32]

/-! ## SendFrame without a limit -/

/-- The state of an attempt of `f` that failed with `st` after `k` retries, once its retry is at the bus master. -/
def nextAttempt (f : Frame) (k : Nat) (st : Byte) (s : State) : State :=
  { s with
    trace := s.trace ++ retryEvents s.cfg f k [st], errcnt := satAdd32 s.errcnt 1
    seq := { s.seq with phase := .attempt f (retryCount (k + 1)) } }

/-- An answered attempt goes on with SendFrame's loop (40_transport.md R103, R105). -/
theorem step_attempt {f : Frame} {n : Half} {s : State} (hbusy : s.busy = true) (hphase : s.seq.phase = .attempt f n)
    (hanswered : s.statuses ≠ []) :
    step s = .next (continueRun s.seq.todo (attempts f s.statuses n (setPhase .start s))) := by
  simp [step, hbusy, resume, hphase, hanswered]

/-- With no limit, an attempt answered with a failure is followed by its retry delay and the next attempt, which is left
unanswered. -/
theorem step_nextAttempt {f : Frame} {k : Nat} {st : Byte} {s : State} (hbusy : s.busy = true)
    (hphase : s.seq.phase = .attempt f (retryCount k)) (hstatuses : s.statuses = []) (hunbounded : s.cfg.retryLimit = 0#16)
    (hfail : st ≠ 0#8) :
    step (offerTicks (waitTicks s.cfg.retryDelayMs) (offerStatus [st] s)) = .next (nextAttempt f k st s) := by
  have hanswers : (offerTicks (waitTicks s.cfg.retryDelayMs) (offerStatus [st] s)).statuses = [st] := by
    simp [offerTicks, offerStatus, hstatuses]
  rw [step_attempt (s := offerTicks _ (offerStatus [st] s)) hbusy hphase (by simp [hanswers]), hanswers,
    attempts_retry (s := setPhase .start (offerTicks _ (offerStatus _ s))) hfail (.inl hunbounded) (Nat.le_add_left _ _),
    attempts]
  simp [continueRun, afterFails, nextAttempt, setPhase, offerTicks, offerStatus, hstatuses]

/-- The states of the infinite run: the `k`-th attempt after `s` is answered with `draw k`. -/
def failingRun (f : Frame) (n : Nat) (draw : Nat → Byte) (s : State) : Nat → State
  | 0 => s
  | k + 1 => nextAttempt f (n + k) (draw k) (failingRun f n draw s k)

/-- Every state of the run awaits the status of its attempt; what no attempt writes is as it was at the start. -/
theorem failingRun_awaits {f : Frame} {n : Nat} {s : State} (draw : Nat → Byte)
    (hphase : s.seq.phase = .attempt f (retryCount n)) (k : Nat) :
    (failingRun f n draw s k).seq.phase = .attempt f (retryCount (n + k))
    ∧ (failingRun f n draw s k).busy = s.busy ∧ (failingRun f n draw s k).lastResp = s.lastResp
    ∧ (failingRun f n draw s k).statuses = s.statuses ∧ (failingRun f n draw s k).cfg = s.cfg := by
  induction k with
  | zero => exact ⟨hphase, rfl, rfl, rfl, rfl⟩
  | succ k ih => exact ⟨rfl, ih.2⟩

/-- Settles O24: `failingRun` is the run; `failingRun_awaits` gives each of its states the premises of `step_nextAttempt`. -/
theorem unboundedRetryNeverCompletes : Obligations.UnboundedRetryNeverCompletes := by
  intro s f n draw hbusy hphase hstatuses hunbounded hdraw
  refine ⟨failingRun f n.toNat draw s, rfl, fun k => ?_⟩
  obtain ⟨hphaseK, hbusyK, hrespK, hstatusesK, hcfgK⟩ :=
    failingRun_awaits (n := n.toNat) draw (by rwa [retryCount_toNat]) k
  have hstep := step_nextAttempt (hbusyK.trans hbusy) hphaseK (hstatusesK.trans hstatuses) (by rwa [hcfgK]) (hdraw k)
  refine ⟨hbusyK.trans hbusy, hrespK, ?step, ?events⟩
  case step => rwa [hcfgK] at hstep
  case events => rw [← hcfgK]; rfl

/-! ## OPEN and CLOSE -/

/-- A request that passes its checks and sends no frame runs its body as it was accepted (60_exceptions.md R202, R206). -/
theorem request_runs {p : Plan} {s : State} (hidle : s.busy = false) (hlegal : p.illegal = false) (hrange : p.range = none)
    (hsilent : wouldSend p = false) : request p s = .next (run p.body (accept p.word s)) := by
  rw [request_idle hidle]
  simp [checked, runBody, hlegal, hrange, hsilent]

/-- OPEN on a closed bus is its claim (40_transport.md R100). -/
theorem exec_openBus_closed {s : State} (hidle : s.busy = false) (hclosed : s.busOpen = false) :
    exec .openBus s = .next (run [.claimBus] (accept (encode .openBus) s)) := request_runs hidle hclosed rfl rfl

/-- A granted claim opens the bus. -/
theorem claimBus_granted {s : State} {rest : List Bool} (h : s.claims = true :: rest) : runPrim .claimBus s = .done
    { s with claims := rest, busOpen := true, trace := s.trace ++ [.claim s.cfg.addr s.cfg.speed true] } := by
  simp [runPrim, claimBus, h, emit]

/-- A refused claim raises BusUnavailable. -/
theorem claimBus_refused {s : State} {rest : List Bool} (h : s.claims = false :: rest) : runPrim .claimBus s = .done
    (raiseError .busUnavailable (s.cfg.addr.setWidth 16)
      { s with claims := rest, trace := s.trace ++ [.claim s.cfg.addr s.cfg.speed false] }) := by
  simp [runPrim, claimBus, h, emit]

/-- Settles O19: on an open bus OPEN is an illegal request, already in `illegalRequestOnlySetsItsFlagAndAnswers`; on a closed
one its claim decides. -/
theorem openClaimsTheBus : Obligations.OpenClaimsTheBus := by
  refine ⟨rfl, fun s hidle => ⟨?alreadyOpen, ?granted, ?refused⟩⟩
  case alreadyOpen => exact illegalRequestOnlySetsItsFlagAndAnswers.2 s hidle
  case granted =>
    intro rest hclosed hclaims
    refine ⟨Seq.idle, ?_⟩
    rw [exec_openBus_closed hidle hclosed, run_cons_done (claimBus_granted (s := accept _ s) hclaims)]
    simp [complete, emit, respCode, accept, Seq.idle, respOk, hidle]
  case refused =>
    intro rest hclosed hclaims
    refine ⟨Seq.idle, ?_⟩
    rw [exec_openBus_closed hidle hclosed, run_cons_done (claimBus_refused (s := accept _ s) hclaims), raiseError_eq]
    simp [complete, emit, respCode, accept, raiseEvents, errorLog, errorCode, setErrorFlag, hidle]

/-- CLOSE runs its one primitive on an open bus, and none on a closed one (40_transport.md R102). -/
theorem exec_close {s : State} (hidle : s.busy = false) : exec .close s =
    .next (run (if s.busOpen then [.releaseBus] else []) (accept (encode .close) s)) :=
  request_runs hidle rfl rfl (by cases s.busOpen <;> rfl)

/-- Settles O20: a case of `exec_close` each, completed with RESP(OK). -/
theorem closeReleasesTheBus : Obligations.CloseReleasesTheBus := by
  refine ⟨rfl, fun s hidle => ⟨fun hopen => ⟨Seq.idle, ?_⟩, fun hclosed => ⟨Seq.idle, ?_⟩⟩⟩
  · rw [exec_close hidle, if_pos hopen, run_cons_done (t := releaseBus _) rfl]
    simp [complete, emit, respCode, releaseBus, accept, Seq.idle, respOk, hidle]
  · rw [exec_close hidle, if_neg (by simp [hclosed]), run_nil]
    simp [complete, emit, respCode, accept, Seq.idle, respOk, hidle]

end Sys2Proof.Machine
end

section
/-! PROOFS. The encoder family: the pins each byte of a frame drives, and the inverse of the encoder (41_encoder.md R124). -/

namespace Sys2Proof.Machine

/-! ## The pins of a frame -/

/-- A nibble ORed with a control byte: the nibble is on D7..D4, the control bits are kept (41_encoder.md R120). -/
theorem lcdPins_nibble_or (b c : Byte) :
    lcdPins ((b &&& 0xF0#8) ||| c) = { lcdPins c with data := b.extractLsb' 4 4 ||| (lcdPins c).data } := by
  have hones : (0xF0#8).extractLsb' 4 4 = BitVec.allOnes 4 := by decide
  have hdata : ((b &&& 0xF0#8) ||| c).extractLsb' 4 4 = b.extractLsb' 4 4 ||| c.extractLsb' 4 4 := by
    rw [BitVec.extractLsb'_or, BitVec.extractLsb'_and, hones, BitVec.and_allOnes]
  simp [lcdPins, hdata]

/-- The upper half of a byte shifted left by a nibble is its lower half. -/
theorem extractLsb'_shiftLeft_nibble (b : Byte) : (b <<< 4).extractLsb' 4 4 = b.extractLsb' 0 4 := by
  apply BitVec.eq_of_getLsbD_eq
  intro i hi
  interval_cases i <;> simp

section
variable {bm : Byte} (hbm : bm = 0x0F#8 ∨ bm = 0x07#8) (b : Byte) (rs : Bool)
include hbm

/-- A masked control byte with EN high (30_encoding.md R84, R85). -/
theorem lcdPins_controlOn :
    lcdPins ((if rs then ctrlDataOn else ctrlCmdOn) &&& bm) = ⟨0#4, bm.getLsbD 3, true, false, rs⟩ := by
  rcases hbm with rfl | rfl <;> cases rs <;> rfl

/-- A masked control byte with EN low (30_encoding.md R84, R85). -/
theorem lcdPins_controlOff :
    lcdPins ((if rs then ctrlDataOff else ctrlCmdOff) &&& bm) = ⟨0#4, bm.getLsbD 3, false, false, rs⟩ := by
  rcases hbm with rfl | rfl <;> cases rs <;> rfl

/-- A frame on the pins: the upper nibble, then the lower, each with EN high and then low; BL, RW and RS constant. -/
theorem lcdPins_encodeByte :
    lcdPins (encodeByte b rs bm).b0 = ⟨b.extractLsb' 4 4, bm.getLsbD 3, true, false, rs⟩
    ∧ lcdPins (encodeByte b rs bm).b1 = ⟨b.extractLsb' 4 4, bm.getLsbD 3, false, false, rs⟩
    ∧ lcdPins (encodeByte b rs bm).b2 = ⟨b.extractLsb' 0 4, bm.getLsbD 3, true, false, rs⟩
    ∧ lcdPins (encodeByte b rs bm).b3 = ⟨b.extractLsb' 0 4, bm.getLsbD 3, false, false, rs⟩ := by
  simp only [encodeByte, lcdPins_nibble_or, lcdPins_controlOn hbm, lcdPins_controlOff hbm, extractLsb'_shiftLeft_nibble,
    BitVec.or_zero, and_self]

end

/-! ## The inverse of the encoder -/

/-- The upper nibble of one byte over that of another. -/
theorem upperNibbles_or (x y : Byte) : (x &&& 0xF0#8) ||| (y >>> 4) = x.extractLsb' 4 4 ++ y.extractLsb' 4 4 := by
  apply BitVec.eq_of_getLsbD_eq
  intro i hi
  rw [BitVec.getLsbD_append (n := 4) (m := 4)]
  interval_cases i <;> simp

/-- The inverse reads the first and the third byte of a frame: the two nibbles, RS and BL. -/
theorem decodeFrame_eq_pins (f : Frame) :
    decodeFrame f = ((lcdPins f.b0).data ++ (lcdPins f.b2).data, (lcdPins f.b0).rs, (lcdPins f.b0).bl) := by
  rw [decodeFrame, upperNibbles_or]
  rfl

theorem decodeFrame_encodeByte {bm : Byte} (hbm : bm = 0x0F#8 ∨ bm = 0x07#8) (b : Byte) (rs : Bool) :
    decodeFrame (encodeByte b rs bm) = (b, rs, bm.getLsbD 3) := by
  obtain ⟨h0, -, h2, -⟩ := lcdPins_encodeByte hbm b rs
  have hb : b.extractLsb' 4 4 ++ b.extractLsb' 0 4 = b :=
    (BitVec.extractLsb'_append_extractLsb'_eq_extractLsb' rfl).trans BitVec.extractLsb'_eq_self
  rw [decodeFrame_eq_pins, h0, h2, hb]

/-- Settles O16: the shape is read off `lcdPins_encodeByte`; the encoder is injective because it has an inverse. -/
theorem encodedFrameHasItsShapeAndInverse : Obligations.EncodedFrameHasItsShapeAndInverse := by
  constructor
  case left =>
    intro b rs bm hbm
    obtain ⟨h0, h1, h2, h3⟩ := lcdPins_encodeByte hbm b rs
    simp only [lcdPins, LcdPins.mk.injEq] at h0 h1 h2 h3
    simp only [frameBytes, List.forall_mem_cons, List.not_mem_nil, false_implies, implies_true,
      decodeFrame_encodeByte hbm, h0, h1, h2, h3, and_self]
  case right =>
    intro b b' rs rs' bm bm' hbm hbm' hframe
    have hinv := congrArg decodeFrame hframe
    simpa only [decodeFrame_encodeByte hbm, decodeFrame_encodeByte hbm', Prod.mk.injEq] using hinv

end Sys2Proof.Machine
end

section
/-! PROOFS. The decoder against the encoder, the opcode table and the list of illegal words (30_encoding.md R74, R75, R82). -/

namespace Sys2Proof

/-! ## The decoder and the encoder are inverse -/

/-- A word the encoder writes has RSV = 0, so the decoder reads its other fields. -/
theorem decode_reqWord (b a opc : Byte) : decode (reqWord b a opc) = decodeFields opc a b := by
  rw [decode, if_neg (by simp), reqOpc_reqWord, reqA_reqWord, reqB_reqWord]

/-- Settles O1: the fields of each request's word are its row's, and its operand's bound is what `wellFormed` says. -/
theorem decodeOfEncodeIsTheInstruction : Obligations.DecodeOfEncodeIsTheInstruction := by
  intro i hi
  have hbyte (x : Byte) : x.toNat < 256 := x.isLt
  cases i <;> simp only [Instr.wellFormed, decide_eq_true_eq] at hi <;>
    simp [encode, decode_reqWord, decodeFields, noOperand, operandA, operandAB, *]

/-- Row by row, what the decoder makes of the fields is a legal request whose word has these fields. -/
theorem encode_of_decodeFields {opc a b : Byte} {i : Instr} (h : decodeFields opc a b = .ok i) :
    i.wellFormed = true ∧ encode i = reqWord b a opc := by
  unfold decodeFields at h
  split at h
  case h_21 => cases h
  all_goals next hopc =>
    have hopc' : opc = BitVec.ofNat 8 opc.toNat := by simp
    rw [hopc] at hopc'
    subst hopc'
    simp only [noOperand_ok_iff, operandA_ok_iff, operandAB_ok_iff] at h
    obtain ⟨hfields, rfl⟩ := h
    simp [Instr.wellFormed, encode, hfields]

/-- Settles O2: a word is its four fields, and a legal one has RSV = 0. -/
theorem encodeOfDecodeIsTheWord : Obligations.EncodeOfDecodeIsTheWord := by
  intro w i h
  obtain ⟨hrsv, hfields⟩ := decode_ok h
  obtain ⟨hwf, hword⟩ := encode_of_decodeFields hfields
  refine ⟨hwf, hword.trans ?_⟩
  calc reqWord (reqB w) (reqA w) (reqOpc w)
      = reqRsv w ++ reqB w ++ reqA w ++ reqOpc w := by rw [hrsv, reqWord]
    _ = w := word_of_fields w

/-- Settles O6: each word is the one `encode` gives its request. -/
theorem sampleWordsDecode : Obligations.SampleWordsDecode := by
  have hdecode := decodeOfEncodeIsTheInstruction
  exact ⟨hdecode .openBus rfl, hdecode (.init 3#8) rfl, hdecode (.goto 4#8 19#8) rfl, hdecode (.sendString 2#8) rfl,
    hdecode (.moveCursor 1#8 2#8) rfl, hdecode (.changeEntryMode 3#8) rfl, hdecode (.createCustomChar 7#8) rfl,
    hdecode (.backlightSet 0#8) rfl, hdecode (.sendCmd 0xFF#8) rfl⟩

/-! ## The words the decoder refuses -/

/-- The converse of `decodeFields_ok`: fields that none of R82's items names are a row's. -/
theorem decodeFields_isOk {opc a b : Byte} (hzero : opc ≠ 0x00#8) (hlast : opc.toNat < 0x15)
    (hA : opc ∈ [0x01#8, 0x02#8, 0x05#8, 0x06#8, 0x07#8, 0x13#8] → a = 0#8)
    (hB : opc ∉ [0x08#8, 0x0B#8, 0x0C#8] → b = 0#8)
    (hfour : opc ∈ [0x03#8, 0x04#8, 0x0D#8] → a.toNat < 4)
    (htwo : opc ∈ [0x0B#8, 0x0C#8, 0x10#8, 0x11#8] → a.toNat < 2) : ∃ i, decodeFields opc a b = .ok i := by
  have hbyte : a.toNat < 256 := a.isLt
  obtain ⟨k, hk, rfl⟩ : ∃ k < 0x15, opc = BitVec.ofNat 8 k := ⟨opc.toNat, hlast, by simp⟩
  have hpos : 0 < k := Nat.pos_of_ne_zero fun h => hzero (by rw [h])
  unfold decodeFields
  interval_cases k <;> simp_all [noOperand_ok_iff, operandA_ok_iff, operandAB_ok_iff]

/-- Settles O4: an illegal word has no request, and a word with none of R82's items has one. -/
theorem decodeRefusesExactlyIllegalWords : Obligations.DecodeRefusesExactlyIllegalWords := by
  intro w
  constructor
  case mpr =>
    intro h
    cases hw : decode w with
    | ok i => exact absurd hw (h.not_decode_ok i)
    | error e => exact ⟨e, rfl⟩
  case mp =>
    rintro ⟨e, he⟩
    by_contra h
    simp only [Machine.IllegalWord, not_or, not_and, not_le, not_not] at h
    obtain ⟨hzero, hlast, hrsv, hA, hB, hfour, htwo⟩ := h
    obtain ⟨i, hi⟩ := decodeFields_isOk hzero hlast hA hB hfour htwo
    rw [decode, if_neg (not_not_intro hrsv), hi] at he
    cases he

/-! ## The opcode table -/

/-- The row of a request's OPC, with the bits of B and A that must be 0; RSV must be 0 in every row. -/
def rowOf (opc mb ma : Byte) : OpcodeRow := ⟨reqWord 0#8 0#8 opc, 0xFF#8 ++ mb ++ ma ++ 0xFF#8⟩

theorem opcodeTable_eq : opcodeTable =
    [rowOf 0x01#8 0xFF#8 0xFF#8, rowOf 0x02#8 0xFF#8 0xFF#8, rowOf 0x03#8 0xFF#8 0xFC#8, rowOf 0x04#8 0xFF#8 0xFC#8,
     rowOf 0x05#8 0xFF#8 0xFF#8, rowOf 0x06#8 0xFF#8 0xFF#8, rowOf 0x07#8 0xFF#8 0xFF#8, rowOf 0x08#8 0x00#8 0x00#8,
     rowOf 0x09#8 0xFF#8 0x00#8, rowOf 0x0A#8 0xFF#8 0x00#8, rowOf 0x0B#8 0x00#8 0xFE#8, rowOf 0x0C#8 0x00#8 0xFE#8,
     rowOf 0x0D#8 0xFF#8 0xFC#8, rowOf 0x0E#8 0xFF#8 0x00#8, rowOf 0x0F#8 0xFF#8 0x00#8, rowOf 0x10#8 0xFF#8 0xFE#8,
     rowOf 0x11#8 0xFF#8 0xFE#8, rowOf 0x12#8 0xFF#8 0x00#8, rowOf 0x13#8 0xFF#8 0xFF#8, rowOf 0x14#8 0xFF#8 0x00#8] := by
  decide

/-- Two words made of fields are equal when their fields are. -/
theorem reqWord_inj {rsv b a opc b' a' opc' : Byte} :
    rsv ++ b ++ a ++ opc = reqWord b' a' opc' ↔ rsv = 0#8 ∧ b = b' ∧ a = a' ∧ opc = opc' := by
  constructor
  case mp =>
    intro h
    have hrsv := congrArg reqRsv h
    have hb := congrArg reqB h
    have ha := congrArg reqA h
    have hopc := congrArg reqOpc h
    rw [reqRsv_append, reqRsv_reqWord] at hrsv
    rw [reqB_append, reqB_reqWord] at hb
    rw [reqA_append, reqA_reqWord] at ha
    rw [reqOpc_append, reqOpc_reqWord] at hopc
    exact ⟨hrsv, hb, ha, hopc⟩
  case mpr =>
    rintro ⟨rfl, rfl, rfl, rfl⟩
    rfl

/-- A word matches a row when each of its fields does. -/
theorem rowOf_matches (w : ReqWord) (opc mb ma : Byte) : (rowOf opc mb ma).matches w = true ↔
    reqRsv w = 0#8 ∧ reqB w &&& mb = 0#8 ∧ reqA w &&& ma = 0#8 ∧ reqOpc w = opc := by
  have hand : w &&& (0xFF#8 ++ mb ++ ma ++ 0xFF#8) =
      (reqRsv w &&& 0xFF#8) ++ (reqB w &&& mb) ++ (reqA w &&& ma) ++ (reqOpc w &&& 0xFF#8) := by
    conv_lhs => rw [← word_of_fields w]
    change (reqRsv w ++ reqB w ++ reqA w ++ reqOpc w : BitVec (8 + 8 + 8 + 8)) &&& _ = _
    rw [BitVec.and_append, BitVec.and_append, BitVec.and_append]
  have hones (x : Byte) : x &&& 0xFF#8 = x := BitVec.and_allOnes
  rw [OpcodeRow.matches, beq_iff_eq, rowOf, hand, reqWord_inj, hones, hones]

theorem and_mask_two (a : Byte) : a &&& 0xFE#8 = 0#8 ↔ a.toNat < 2 := by revert a; decide
theorem and_mask_four (a : Byte) : a &&& 0xFC#8 = 0#8 ↔ a.toNat < 4 := by revert a; decide

/-- The opcode map's rows on the fields of a word: the masks say what `noOperand`, `operandA` and `operandAB` check. -/
theorem decodeFields_isOk_iff (w : ReqWord) (hrsv : reqRsv w = 0#8) :
    (∃ i, decodeFields (reqOpc w) (reqA w) (reqB w) = .ok i) ↔ ∃ r ∈ opcodeTable, r.matches w = true := by
  have hbyte (x : Byte) : x.toNat < 256 := x.isLt
  have hones (x : Byte) : x &&& 0xFF#8 = x := BitVec.and_allOnes
  simp only [opcodeTable_eq, List.mem_cons, List.not_mem_nil, or_false, exists_eq_or_imp, exists_eq_left, rowOf_matches, hrsv,
    and_mask_two, and_mask_four, hones, BitVec.and_zero, true_and]
  generalize reqOpc w = opc
  unfold decodeFields
  split
  case h_21 => simp_all [← BitVec.toNat_inj]
  all_goals next hopc =>
    have hopc' : opc = BitVec.ofNat 8 opc.toNat := by simp
    rw [hopc] at hopc'
    subst hopc'
    simp [noOperand_ok_iff, operandA_ok_iff, operandAB_ok_iff, hbyte, and_comm]

/-- Settles O3: a word with RSV ≠ 0 has no request and no row; the others are `decodeFields_isOk_iff`. -/
theorem decodeAcceptsExactlyTheTableRows : Obligations.DecodeAcceptsExactlyTheTableRows := by
  intro w
  by_cases hrsv : reqRsv w = 0#8
  case pos => rw [decode, if_neg (not_not_intro hrsv), decodeFields_isOk_iff w hrsv]
  case neg =>
    rw [decode_of_rsv_ne hrsv]
    simp [opcodeTable_eq, rowOf_matches, hrsv]

end Sys2Proof
end

section
/-! PROOFS. One step: which request it runs, when it is stuck, and reset (30_encoding.md R71; 70_reset_and_hazards.md R240,
R258). -/

namespace Sys2Proof.Machine

/-! ## Acceptance -/

theorem runWord_ok {w : ReqWord} {i : Instr} (h : decode w = .ok i) (s : State) : runWord w s = exec i s := by
  simp [runWord, h]

/-- Settles O7. -/
theorem stepRunsTheDecodedRequest : Obligations.StepRunsTheDecodedRequest := by
  intro s w ws i hidle hoffered hdecode
  rw [step_idle hidle hoffered, runWord_ok hdecode]

/-- Settles O8: the placed word is the first one offered to an idle block. -/
theorem idleStepWaitsAndAPlacedWordIsRunNext : Obligations.IdleStepWaitsAndAPlacedWordIsRunNext := by
  constructor
  case left =>
    intro s hidle hnone
    simp [step, hidle, hnone]
  case right =>
    intro s nbits w i hdecode
    exact stepRunsTheDecodedRequest (s.withFetchWord nbits w) _ s.requests i rfl rfl hdecode

/-- Settles O9: on a busy block each request's plan is refused by the port. -/
theorem busyBlockAcceptsNoRequest : Obligations.BusyBlockAcceptsNoRequest := by
  intro i s hbusy
  obtain ⟨p, hp, -⟩ := exec_request i s
  exact ⟨by simp [reqReady, hbusy], hp.trans (request_busy hbusy)⟩

/-- Settles O10. -/
theorem acceptanceReadsNoTransientState : Obligations.AcceptanceReadsNoTransientState :=
  fun i _ q hidle => exec_seq_irrelevant hidle i q

/-! ## Stuck states -/

/-- A block that is not busy always has a next state. -/
theorem step_of_idle {s : State} (hidle : s.busy = false) : ∃ t, step s = .next t := by
  unfold step
  rw [if_neg (by simp [hidle])]
  split
  · exact ⟨s, rfl⟩
  · next w ws _ =>
    obtain ⟨p, hp, -⟩ := runWord_request w { s with requests := ws }
    exact ⟨_, hp.trans (request_idle hidle)⟩

theorem step_of_busy {s : State} (hbusy : s.busy = true) : step s = resume s := if_pos hbusy

/-- The primitive in progress goes on with the inputs offered. -/
def goOn (s : State) : Progress :=
  let t := setPhase .start s
  match s.seq.phase with
  | .start => .done t
  | .attempt f n => attempts f s.statuses n t
  | .retryWait f n left => retryAgain f n (countTicks left (.retryWait f n) t)
  | .waiting left => countTicks left .waiting t
  | .claiming => claimBus t
  | .payloadSend => sendNextPayload t
  | .payloadDrop => dropNextPayload t

/-- The fault of a request in progress whose awaited input is missing (70_reset_and_hazards.md R258). -/
def stuckOn (s : State) : Option Fault :=
  match s.seq.phase with
  | .start => none
  | .attempt _ _ => if s.statuses = [] then some .attemptUnanswered else none
  | .retryWait _ _ left => if s.ticks = 0 ∧ left ≠ 0 then some .tickStopped else none
  | .waiting left => if s.ticks = 0 ∧ left ≠ 0 then some .tickStopped else none
  | .claiming => if s.claims = [] then some .claimUnanswered else none
  | .payloadSend => if s.payload = [] then some .payloadMissing else none
  | .payloadDrop => if s.payload = [] then some .payloadMissing else none

/-- A step of a request in progress: the fault, or the primitive in progress and then the ones after it. -/
theorem resume_eq (s : State) :
    resume s = (stuckOn s).elim (.next (continueRun s.seq.todo (goOn s))) Host.Outcome.fault := by
  cases hp : s.seq.phase <;> simp only [resume, stuckOn, goOn, hp]
  case start => rfl
  all_goals split_ifs <;> rfl

theorem resume_eq_fault_iff (s : State) (r : Fault) : resume s = .fault r ↔ stuckOn s = some r := by
  rw [resume_eq]
  cases stuckOn s <;> simp

/-- Settles O11: phase by phase, `stuckOn` asks for the one input the phase waits for. -/
theorem stuckExactlyWithoutTheAwaitedInput : Obligations.StuckExactlyWithoutTheAwaitedInput := by
  intro s
  cases hb : s.busy with
  | false =>
    obtain ⟨t, ht⟩ := step_of_idle hb
    simp [ht]
  | true =>
    have hrefused (r : Refusal) : resume s ≠ .refused r := by
      rw [resume_eq]
      cases stuckOn s <;> simp
    rw [step_of_busy hb]
    simp only [resume_eq_fault_iff]
    refine ⟨?payload, ?claim, ?attempt, ?tick, hrefused⟩ <;> cases hp : s.seq.phase <;> simp [stuckOn, hp]

/-! ## Reset -/

/-- Settles O14. -/
theorem resetAbandonsTheRequestSilently : Obligations.ResetAbandonsTheRequestSilently :=
  fun _ _ => ⟨rfl, rfl, rfl, ⟨rfl, rfl, rfl, rfl, rfl⟩, rfl⟩

theorem blMaskOf_legal (on : Bool) : blMaskOf on = 0x0F#8 ∨ blMaskOf on = 0x07#8 := by
  cases on
  · exact .inr rfl
  · exact .inl rfl

/-- Settles O49: nothing is in progress at reset, and the trace it keeps has the frames it had. -/
theorem resetStateMeetsTheInvariant : Obligations.ResetStateMeetsTheInvariant := by
  have hreset (c : Cfg) (p : Params) : Inv (State.resetWith c p) :=
    { mask := blMaskOf_legal c.blInit, resp := by simp [State.resetWith], idle := fun _ => rfl, waits := nofun, traceShape := nofun
      flight := nofun, sending := by simp [State.resetWith, Seq.idle], order := rfl, claiming := nofun
      noClaimLeft := nofun, sender := by simp [State.resetWith, Seq.idle, inFlight], writers := nofun, initRest := nofun
      initState := nofun }
  refine ⟨hreset, fun c s hs => ?_⟩
  exact { hreset c s.par with traceShape := hs.traceShape }

/-! ## Waiting -/

/-- Settles O25. -/
theorem waitCountsOnePulseMoreThanItsMilliseconds : Obligations.WaitCountsOnePulseMoreThanItsMilliseconds := by
  intro d s
  refine ⟨fun h => ?zero, fun h hticks => ?all, fun h hticks => ?fewer⟩
  case zero => exact if_pos h
  case all => simp [runPrim, doWait, h, countTicks, hticks, emit]
  case fewer => simp [runPrim, doWait, h, countTicks, Nat.not_le.mpr hticks, emit, setPhase]

/-! ## The nibbles a frame latches -/

/-- Settles O17: EN is high in the first and third byte of a frame and low in the others. -/
theorem frameLatchesUpperNibbleThenLower : Obligations.FrameLatchesUpperNibbleThenLower := by
  intro b rs bm hbm
  obtain ⟨h0, h1, h2, h3⟩ := lcdPins_encodeByte hbm b rs
  simp [frameBytes, latchedNibbles, h0, h1, h2, h3]

end Sys2Proof.Machine
end

section
/-! PROOFS. The plan of every request, written out once, and what its checks make of it (60_exceptions.md R202). -/

namespace Sys2Proof.Machine

/-! ## The plan of a request -/

/-- The primitives of a request that passes its checks. -/
def bodyOf (i : Instr) (s : State) : List Prim :=
  match i with
  | .openBus => [.claimBus]
  | .close => if s.busOpen then [.releaseBus] else []
  | .init ct => initBody s.par (enum2 ct)
  | .resetScreen ct => resetScreenBody s.par (enum2 ct)
  | .clearScreen => (rowsInOrder s.par.rowOrder s.cfg.rows.toNat).flatMap (clearRow s.cfg.cols)
  | .clearScreenCmd => [.sendCmd s.par.cmd.clear, .wait s.par.clearSettleMs]
  | .home => [.sendCmd s.par.cmd.home, .wait s.par.homeSettleMs]
  | .goto row col => ((rowAddr? s.cfg.cols row col).map Prim.sendCmd).toList
  | .sendChar ch => [.sendData ch]
  | .sendString n => List.replicate n.toNat .sendPayload
  | .moveCursor dir count => List.replicate count.toNat (.sendCmd (moveCmd s.par.cmd (enum1 dir)))
  | .scroll dir count => List.replicate count.toNat (.sendCmd (scrollCmd s.par.cmd (enum1 dir)))
  | .changeEntryMode mode => [.sendCmd (entryCmd s.par.cmd (enum2 mode)), .setEntryMode (enum2 mode)]
  | .createCustomChar slot => .sendCmd (cgramCmd slot) :: List.replicate glyphBytes .sendPayload
  | .printCustomChar slot => [.sendData slot]
  | .backlightSet on => [.setBacklight (enum1 on)]
  | .displayOn on => [.sendCmd (displayCmd s.par.cmd (enum1 on)), .wait s.par.displayMs]
  | .clearLine row => clearRow s.cfg.cols row
  | .shutdown => [.sendCmd s.par.cmd.displayOff, .wait s.par.displayMs, .releaseBus, .setInitState .uninitialized]
  | .sendCmd c => [.sendCmd c]

/-- What check 2 of a request raises. -/
def rangeOf (i : Instr) (s : State) : Option (ErrorKind × Half) :=
  match i with
  | .clearScreen => if geometryOk s.cfg then none else some (.invalidGeometry, 0x05#8 ++ s.cfg.rows.setWidth 8)
  | .goto row _ => if rowAddressable s.cfg.cols row then none else some (.invalidGeometry, 0x08#8 ++ row)
  | .clearLine row => if rowAddressable s.cfg.cols row then none else some (.invalidGeometry, 0x12#8 ++ row)
  | .createCustomChar slot => slotCheck slot
  | .printCustomChar slot => slotCheck slot
  | _ => none

/-- Whether check 1 of a request fails. -/
def illegalOf (i : Instr) (s : State) : Bool :=
  match i with
  | .openBus => s.busOpen
  | i => !i.wellFormed

def isInit : Instr → Bool
  | .init _ => true
  | _ => false

def planFor (i : Instr) (s : State) : Plan where
  word := encode i
  illegal := illegalOf i s
  range := rangeOf i s
  isInit := isInit i
  body := bodyOf i s

section
variable (i : Instr) (s : State)

@[simp] theorem planFor_word : (planFor i s).word = encode i := rfl
@[simp] theorem planFor_illegal : (planFor i s).illegal = illegalOf i s := rfl
@[simp] theorem planFor_range : (planFor i s).range = rangeOf i s := rfl
@[simp] theorem planFor_isInit : (planFor i s).isInit = isInit i := rfl
@[simp] theorem planFor_body : (planFor i s).body = bodyOf i s := rfl

end

/-- Every arm of `exec` is the request of its plan. -/
theorem exec_eq_request (i : Instr) (s : State) : exec i s = request (planFor i s) s := by
  cases i <;> rfl

/-- A plan is made from the geometry, the parameters and BUS_OPEN alone. -/
theorem planFor_congr (i : Instr) {s s' : State} (hrows : s'.cfg.rows = s.cfg.rows) (hcols : s'.cfg.cols = s.cfg.cols)
    (hpar : s'.par = s.par) (hopen : s'.busOpen = s.busOpen) : planFor i s' = planFor i s := by
  have hbody : bodyOf i s' = bodyOf i s := by simp only [bodyOf, hrows, hcols, hpar, hopen]
  have hrange : rangeOf i s' = rangeOf i s := by
    have hgeometry : geometryOk s'.cfg = geometryOk s.cfg := by simp only [geometryOk, hrows, hcols]
    cases i <;> simp only [rangeOf, hgeometry, hrows, hcols]
  have hillegal : illegalOf i s' = illegalOf i s := by simp only [illegalOf, hopen]
  simp only [planFor, hbody, hrange, hillegal]

/-! ## What the plans hold -/

/-- The Wait the primitive makes. -/
def waitOf? : Prim → Option Half
  | .wait d => some d
  | _ => none

theorem waitOf?_of_sends {p : Prim} (h : sendsFrame p = true) : waitOf? p = none := by
  cases p
  case sendCmd | sendData | sendPayload => rfl
  all_goals cases h

/-- The primitive takes a payload byte. -/
def takesPayload : Prim → Bool
  | .sendPayload => true
  | .dropPayload => true
  | _ => false

/-- A row's clearing is one frame and a frame per column. -/
theorem clearRow_reachable {cols row : Byte} (h : RowReachable cols row) :
    ∃ a, clearRow cols row = .sendCmd a :: List.replicate cols.toNat (.sendData spaceChar) := by
  obtain ⟨a, ha⟩ := rowAddr_some h 0#8
  exact ⟨a, by rw [clearRow, ha]⟩

/-- Every row CLEAR_SCREEN visits on a valid display is reachable, and it visits CFG.ROWS of them. -/
theorem rowsInOrder_valid {c : Cfg} (h : GeometryValid c) (o : RowOrder) :
    (rowsInOrder o c.rows.toNat).length = c.rows.toNat ∧ ∀ r ∈ rowsInOrder o c.rows.toNat, RowReachable c.cols r := by
  obtain ⟨hlo, hhi, hcols⟩ := h
  generalize c.rows.toNat = n at *
  interval_cases n <;> cases o <;> simp_all [rowsInOrder, List.range_succ, RowReachable]

/-- A list that is cleared row by row, counted row by row. -/
theorem countP_flatMap_const {α β : Type} (p : β → Bool) (f : α → List β) (k : Nat) {xs : List α}
    (h : ∀ x ∈ xs, (f x).countP p = k) : (xs.flatMap f).countP p = xs.length * k := by
  rw [List.countP_flatMap, List.map_congr_left (g := fun _ => k) (by simpa using h)]
  simp

/-- The plan of a request that passes check 2 has the frames of its row (70_reset_and_hazards.md R254). -/
theorem bodyOf_frames {i : Instr} {s : State} (h : PassesRange i s.cfg) :
    (bodyOf i s).countP sendsFrame = frameCount s.cfg i := by
  have hrow {r : Byte} (hr : RowReachable s.cfg.cols r) : (clearRow s.cfg.cols r).countP sendsFrame = 1 + s.cfg.cols.toNat := by
    obtain ⟨a, ha⟩ := clearRow_reachable hr
    simp [ha, sendsFrame, List.countP_cons, List.countP_replicate, Nat.add_comm]
  cases i
  case clearLine row => exact hrow h
  case clearScreen =>
    obtain ⟨hlen, hrows⟩ := rowsInOrder_valid h s.par.rowOrder
    rw [bodyOf, countP_flatMap_const _ _ _ fun r hr => hrow (hrows r hr), hlen]
    rfl
  case goto row col =>
    obtain ⟨a, ha⟩ := rowAddr_some h col
    simp [bodyOf, ha, sendsFrame, frameCount, List.countP_cons]
  case close => cases hb : s.busOpen <;> simp [bodyOf, hb, sendsFrame, frameCount]
  all_goals
    simp [bodyOf, frameCount, sendsFrame, initBody, resetScreenBody, List.countP_cons, List.countP_replicate, glyphBytes]

/-- A row's clearing makes no Wait and takes no payload. -/
theorem clearRow_sends_only {cols row : Byte} : (clearRow cols row).filterMap waitOf? = []
    ∧ (clearRow cols row).countP takesPayload = 0 ∧ .claimBus ∉ clearRow cols row := by
  rw [List.filterMap_eq_nil_iff, List.countP_eq_zero]
  refine ⟨fun q hq => ?_, fun q hq => ?_, fun hq => ?_⟩
  · rcases mem_clearRow hq with ⟨b, rfl⟩ | ⟨b, rfl⟩ <;> rfl
  · rcases mem_clearRow hq with ⟨b, rfl⟩ | ⟨b, rfl⟩ <;> simp [takesPayload]
  · rcases mem_clearRow hq with ⟨b, hb⟩ | ⟨b, hb⟩ <;> cases hb

/-- The plan of a request makes the Waits of its row (70_reset_and_hazards.md R254). -/
theorem bodyOf_waits (i : Instr) (s : State) : (bodyOf i s).filterMap waitOf? = waitsOf s.par i := by
  cases i
  case clearLine row => exact clearRow_sends_only.1
  case clearScreen => simp [bodyOf, List.filterMap_flatMap, clearRow_sends_only, waitsOf]
  case goto row col => cases h : rowAddr? s.cfg.cols row col <;> simp [bodyOf, h, waitOf?, waitsOf]
  case close => cases hb : s.busOpen <;> simp [bodyOf, hb, waitOf?, waitsOf]
  all_goals simp [bodyOf, waitsOf, waitOf?, initBody, resetScreenBody, List.filterMap_cons, List.filterMap_replicate]

/-- The plan of a request takes the payload bytes its word implies (30_encoding.md R74). -/
theorem bodyOf_payload (i : Instr) (s : State) : (bodyOf i s).countP takesPayload = payloadLen (encode i) := by
  cases i
  case clearLine row => exact clearRow_sends_only.2.1.trans (by simp [payloadLen, encode])
  case clearScreen =>
    refine Eq.trans ?_ (show 0 = _ by simp [payloadLen, encode])
    exact (countP_flatMap_const _ _ 0 fun r _ => clearRow_sends_only.2.1).trans (Nat.mul_zero _)
  case goto row col => cases h : rowAddr? s.cfg.cols row col <;> simp [bodyOf, h, takesPayload, payloadLen, encode]
  case close => cases hb : s.busOpen <;> simp [bodyOf, hb, takesPayload, payloadLen, encode]
  all_goals
    simp [bodyOf, payloadLen, encode, takesPayload, initBody, resetScreenBody, List.countP_cons, List.countP_replicate, glyphBytes]

/-- Only OPEN claims the bus (40_transport.md R100). -/
theorem claimBus_notMem_bodyOf {i : Instr} (h : i ≠ .openBus) (s : State) : .claimBus ∉ bodyOf i s := by
  cases i
  case openBus => exact absurd rfl h
  case clearLine row => exact clearRow_sends_only.2.2
  case clearScreen => simp [bodyOf, clearRow_sends_only]
  case close => cases hb : s.busOpen <;> simp [bodyOf, hb]
  all_goals simp [bodyOf, initBody, resetScreenBody]

/-- The plan of a request that passes check 2 sends a frame when 60_exceptions.md R206 lists it. -/
theorem wouldSend_planFor {i : Instr} {s : State} (h : PassesRange i s.cfg) :
    wouldSend (planFor i s) = wouldSendFrame i := by
  have hframes : 0 < frameCount s.cfg i ↔ wouldSendFrame i = true := by
    cases i
    case clearScreen => simpa [frameCount, wouldSendFrame] using Nat.lt_of_lt_of_le Nat.zero_lt_one h.1
    all_goals simp [frameCount, wouldSendFrame, Nat.one_le_iff_ne_zero, Nat.pos_iff_ne_zero]
  rw [Bool.eq_iff_iff, ← hframes, ← bodyOf_frames h, List.countP_pos_iff, wouldSend, List.any_eq_true, planFor]

/-! ## The checks -/

/-- The request passes the checks 1 to 3 of 60_exceptions.md R202. -/
structure Passes (i : Instr) (s : State) : Prop where
  wellFormed : i.wellFormed = true
  closed : i = .openBus → s.busOpen = false
  range : PassesRange i s.cfg
  bus : wouldSendFrame i = true → s.busOpen = true

theorem isInit_eq_false_iff (i : Instr) : isInit i = false ↔ ∀ ct, i ≠ .init ct := by
  cases i <;> simp [isInit]

theorem rangeOf_eq_none_iff (i : Instr) (s : State) : rangeOf i s = none ↔ PassesRange i s.cfg := by
  cases i <;> simp [rangeOf, PassesRange, ← rowAddressable_iff, ← geometryOk_iff, slotCheck_none]

theorem illegalOf_eq_false_iff (i : Instr) (s : State) :
    illegalOf i s = false ↔ i.wellFormed = true ∧ (i = .openBus → s.busOpen = false) := by
  cases i <;> simp [illegalOf, Instr.wellFormed]

end Sys2Proof.Machine
end

section
/-! PROOFS. The checks of a request (60_exceptions.md R202): the requests each of them ends, and the readiness mark (R207). -/

namespace Sys2Proof.Machine

/-! ## Requests that a check ends -/

/-- Check 2 ends a request that passes check 1. -/
theorem exec_range {i : Instr} {s : State} {e : ErrorKind} {info : Half} (hidle : s.busy = false)
    (hlegal : illegalOf i s = false) (hrange : rangeOf i s = some (e, info))
    (hpayload : payloadLen (encode i) ≤ s.payload.length) :
    exec i s = .next (setErrorFlag e
      (afterRaise s (raiseEvents s.cfg.debug e info) (errorCode e) (payloadLen (encode i)))) := by
  rw [exec_eq_request, request_idle hidle, ← endWith_accept e info hidle hpayload]
  simp [checked, hlegal, hrange]

/-- Check 3 ends a request that passes the others and would send a frame. -/
theorem exec_closed {i : Instr} {s : State} (hidle : s.busy = false) (hlegal : illegalOf i s = false)
    (hrange : PassesRange i s.cfg) (hsends : wouldSendFrame i = true) (hclosed : s.busOpen = false)
    (hpayload : payloadLen (encode i) ≤ s.payload.length) :
    exec i s = .next { afterRaise s (logEvents s.cfg.debug .busNotOpen ((reqOpc (encode i)).setWidth 16)) 2#3
      (payloadLen (encode i)) with fBusNotOpen := true } := by
  have hend := endWith_accept .busNotOpen ((reqOpc (encode i)).setWidth 16) hidle hpayload
  have hwould : wouldSend (planFor i s) = true := (wouldSend_planFor hrange).trans hsends
  have hnone := (rangeOf_eq_none_iff i s).mpr hrange
  rw [exec_eq_request, request_idle hidle]
  simp [checked, hwould, hclosed, hlegal, hnone, hend, setErrorFlag, raiseEvents, errorLog, errorCode]

/-- A request with an enumeration operand takes no payload. -/
theorem payloadLen_of_not_wellFormed {i : Instr} (h : i.wellFormed = false) : payloadLen (encode i) = 0 := by
  cases i <;> first | cases h | simp [payloadLen, encode]

/-- Settles O44. -/
theorem outOfRangeOperandIsIllegal : Obligations.OutOfRangeOperandIsIllegal := by
  intro i s hidle hbad
  have hlen := payloadLen_of_not_wellFormed hbad
  have hillegal : illegalOf i s = true := by
    rw [← Bool.not_eq_false, illegalOf_eq_false_iff, hbad]
    simp
  rw [exec_eq_request, request_illegal hidle hillegal (by simp [hlen])]
  simp [hlen, wordInfo]

theorem exec_invalidGeometry {i : Instr} {s : State} {info : Half} (hidle : s.busy = false) (hlegal : illegalOf i s = false)
    (hrange : rangeOf i s = some (.invalidGeometry, info)) (hlen : payloadLen (encode i) = 0) :
    exec i s = .next
      { afterRaise s (logEvents s.cfg.debug .invalidGeometry info) 5#3 0 with wInvalidGeometry := true } := by
  rw [exec_range hidle hlegal hrange (by simp [hlen]), hlen]
  rfl

/-- Settles O45: each geometry error is raised by check 2, and none of the three requests has a payload. -/
theorem invalidGeometryEndsTheRequest : Obligations.InvalidGeometryEndsTheRequest := by
  intro s hidle
  refine ⟨fun row col h => ?goto, fun row h => ?line, fun h => ?screen⟩
  case goto =>
    rw [← rowAddressable_iff] at h
    exact exec_invalidGeometry (i := .goto row col) hidle rfl (if_neg h) (by simp [payloadLen, encode])
  case line =>
    rw [← rowAddressable_iff] at h
    exact exec_invalidGeometry (i := .clearLine row) hidle rfl (if_neg h) (by simp [payloadLen, encode])
  case screen =>
    rw [← geometryOk_iff] at h
    exact exec_invalidGeometry (i := .clearScreen) hidle rfl (if_neg h) (by simp [payloadLen, encode])

/-- Settles O46: both requests have the same check 2, whose error has no LOG. -/
theorem invalidSlotEndsTheRequestSilently : Obligations.InvalidSlotEndsTheRequestSilently := by
  intro slot s hidle hslot
  have hcheck : slotCheck slot = some (.invalidSlot, 0#16) := if_neg (Nat.not_lt.mpr hslot)
  constructor
  case left =>
    intro hpayload
    have hlen : payloadLen (encode (.createCustomChar slot)) = 8 := by simp [payloadLen, encode]
    rw [exec_range (i := .createCustomChar slot) hidle rfl hcheck (by rwa [hlen]), hlen]
    rfl
  case right =>
    have hlen : payloadLen (encode (.printCustomChar slot)) = 0 := by simp [payloadLen, encode]
    rw [exec_range (i := .printCustomChar slot) hidle rfl hcheck (by simp [hlen]), hlen]
    rfl

theorem illegalOf_of_sends {i : Instr} (hwf : i.wellFormed = true) (hsends : wouldSendFrame i = true) (s : State) :
    illegalOf i s = false := by
  refine (illegalOf_eq_false_iff i s).mpr ⟨hwf, ?_⟩
  rintro rfl
  cases hsends

/-- Settles O47. -/
theorem busNotOpenEndsTheRequestBeforeAnyAction : Obligations.BusNotOpenEndsTheRequestBeforeAnyAction := by
  intro i s hidle hclosed hwf hrange hsends hpayload
  exact exec_closed hidle (illegalOf_of_sends hwf hsends s) hrange hsends hclosed hpayload

/-! ## What a run keeps -/

/-- A relation that every update, the completion of a request and its stop at a waiting primitive keep holds over a run. -/
theorem Advances.rel {F : Frame → Prop} {P : Prim → Prop} {R : State → State → Prop} (hr : ∀ s, R s s)
    (ht : ∀ s t u, R s t → R t u → R s u) (hu : ∀ s t, Update F P s t → R s t) (hc : ∀ s, R s (complete s))
    {ps : List Prim} {s t : State} (h : Advances F P ps s t) : R s t := by
  rcases h with ⟨u, hsu, rfl⟩ | ⟨u, p, before, after, -, hsu, -, -, rfl⟩
  · exact ht _ _ _ (hsu.induct hr ht hu) (hc u)
  · exact ht _ _ _ (hsu.induct hr ht hu) (hu _ _ (.seq u { u.seq with todo := after } rfl))

/-- What an accepted request does, with no premise on its frames and primitives. -/
theorem exec_advances {i : Instr} {s t : State} (hidle : s.busy = false) (h : exec i s = .next t) :
    ∃ u, Starts (planFor i s) (accept (encode i) s) u ∧
      Advances (fun _ => True) (fun _ => True) (planPrims (planFor i s) (accept (encode i) s)) u t := by
  rw [exec_eq_request] at h
  exact request_advances (F := fun _ => True) (P := fun _ => True) (p := planFor i s) (fun _ _ _ _ _ _ => trivial)
    (fun _ _ => trivial) trivial (fun _ _ _ _ _ => trivial) hidle h

theorem Update.fNotReadyUse {F : Frame → Prop} {P : Prim → Prop} {s t : State} (h : Update F P s t) :
    t.fNotReadyUse = s.fNotReadyUse := by
  cases h <;> simp

/-- The readiness mark is set by the checks of a request, and by nothing after them. -/
theorem Starts.fNotReadyUse {p : Plan} {s t : State} (h : Starts p s t) : t.fNotReadyUse = true ↔
    s.fNotReadyUse = true ∨ (p.illegal = false ∧ p.range = none ∧ wouldSend p = true ∧ s.busOpen = true
      ∧ p.isInit = false ∧ s.initState ≠ .ready) := by
  cases h with
  | illegal hi => simp [hi]
  | range e info hi hr => simp [hr]
  | closed hi hr hw hb => simp [hb]
  | passes hi hr hb =>
    cases hw : wouldSend p <;> cases hn : p.isInit <;> simp_all

/-- Settles O48: the mark is what `Starts.fNotReadyUse` says of the request's plan. -/
theorem notReadyUseIsMarkedExactlyBeforeReady : Obligations.NotReadyUseIsMarkedExactlyBeforeReady := by
  intro i s hidle
  refine ⟨_, (exec_eq_request i s).trans (request_idle hidle), ?_⟩
  obtain ⟨u, hstart, hrun⟩ := exec_advances hidle ((exec_eq_request i s).trans (request_idle hidle))
  have hkeep := hrun.rel (R := fun a b => b.fNotReadyUse = a.fNotReadyUse) (fun _ => rfl)
    (fun _ _ _ hab hbc => hbc.trans hab) (fun _ _ h => h.fNotReadyUse) (fun _ => rfl)
  have hsilent : wouldSendFrame i = true → i ≠ .openBus := by
    rintro h rfl
    cases h
  rw [hkeep, hstart.fNotReadyUse]
  simp only [accept_fNotReadyUse, accept_busOpen, accept_initState, planFor_illegal, planFor_range, planFor_isInit,
    illegalOf_eq_false_iff, rangeOf_eq_none_iff, isInit_eq_false_iff]
  refine or_congr_right ⟨?mp, ?mpr⟩
  case mp =>
    rintro ⟨⟨hwf, -⟩, hrange, hsends, hopen, hinit, hstate⟩
    exact ⟨hwf, hrange, (wouldSend_planFor hrange).symm.trans hsends, hinit, hopen, hstate⟩
  case mpr =>
    rintro ⟨hwf, hrange, hsends, hinit, hopen, hstate⟩
    exact ⟨⟨hwf, fun h => absurd h (hsilent hsends)⟩, hrange, (wouldSend_planFor hrange).trans hsends, hopen, hinit, hstate⟩

end Sys2Proof.Machine
end

section
/-! PROOFS. What every step keeps, from every state: the configuration, the sticky flags, the trace, ERRCNT and the one RESP of
a request (10_state.md R21, R25 to R29; 60_exceptions.md R204, R213). -/

namespace Sys2Proof.Machine

/-! ## Relations that every step keeps -/

/-- A relation that acceptance, the checks, every update and completion keep holds over a step. -/
theorem step_rel {R : State → State → Prop} (hr : ∀ s, R s s) (ht : ∀ s t u, R s t → R t u → R s u)
    (ha : ∀ (w : ReqWord) (ws : List ReqWord) (s : State), R s (accept w { s with requests := ws }))
    (hs : ∀ p s t, Starts p s t → R s t) (hu : ∀ s t, Update (fun _ => True) (fun _ => True) s t → R s t)
    (hc : ∀ s, R s (complete s)) {s t : State} (h : step s = .next t) : R s t := by
  have hF (m : Byte) : FramesOk (fun _ => True) (fun _ => True) m := fun _ _ _ _ _ => trivial
  rcases step_cases h with ⟨-, -, rfl⟩ | ⟨w, ws, p, hidle, -, hreq, -⟩ | ⟨-, hres⟩
  · exact hr t
  · obtain ⟨u, hstart, hrun⟩ := request_advances (fun _ => hF _) (fun _ _ => trivial) trivial (hF _)
      (s := { s with requests := ws }) hidle hreq
    exact ht _ _ _ (ht _ _ _ (ha p.word ws s) (hs p _ u hstart)) (hrun.rel hr ht hu hc)
  · exact (resume_advances (fun _ => hF _) (fun _ _ => trivial) (fun _ => trivial) (hF _) (fun _ _ => trivial)
      (fun _ => trivial) hres).rel hr ht hu hc

section
variable {F : Frame → Prop} {P : Prim → Prop} {p : Plan} {s t : State}

theorem Update.cfg_par (h : Update F P s t) : t.cfg = s.cfg ∧ t.par = s.par := by
  cases h <;> simp

theorem Starts.cfg_par (h : Starts p s t) : t.cfg = s.cfg ∧ t.par = s.par := by
  obtain ⟨-, r, hr⟩ := h.frame
  rw [hr]
  exact ⟨rfl, rfl⟩

/-- No sticky flag that is set in `s` is clear in `t`. -/
structure KeepsFlags (s t : State) : Prop where
  busUnavailable : s.fBusUnavailable = true → t.fBusUnavailable = true
  illegalRequest : s.fIllegalRequest = true → t.fIllegalRequest = true
  busNotOpen : s.fBusNotOpen = true → t.fBusNotOpen = true
  notReadyUse : s.fNotReadyUse = true → t.fNotReadyUse = true
  frameDropped : s.fFrameDropped = true → t.fFrameDropped = true
  invalidGeometry : s.wInvalidGeometry = true → t.wInvalidGeometry = true
  invalidSlot : s.wInvalidSlot = true → t.wInvalidSlot = true

theorem KeepsFlags.trans {u : State} (h : KeepsFlags s t) (h' : KeepsFlags t u) : KeepsFlags s u where
  busUnavailable := h'.busUnavailable ∘ h.busUnavailable
  illegalRequest := h'.illegalRequest ∘ h.illegalRequest
  busNotOpen := h'.busNotOpen ∘ h.busNotOpen
  notReadyUse := h'.notReadyUse ∘ h.notReadyUse
  frameDropped := h'.frameDropped ∘ h.frameDropped
  invalidGeometry := h'.invalidGeometry ∘ h.invalidGeometry
  invalidSlot := h'.invalidSlot ∘ h.invalidSlot

theorem Update.keepsFlags (h : Update F P s t) : KeepsFlags s t := by
  cases h <;> constructor <;> simp +contextual [setErrorFlag]

/-- A raise sets flags and clears none. -/
theorem raiseError_keepsFlags (e : ErrorKind) (info : Half) (s : State) : KeepsFlags s (raiseError e info s) := by
  constructor <;> simp +contextual

theorem Starts.keepsFlags (h : Starts p s t) : KeepsFlags s t := by
  cases h with
  | illegal => exact raiseError_keepsFlags _ _ s
  | range => exact raiseError_keepsFlags _ _ s
  | closed => exact raiseError_keepsFlags _ _ s
  | passes => split <;> constructor <;> simp +contextual

/-- The trace of `t` extends that of `s` by events of which `P` holds. -/
def Emits (P : Event → Prop) (s t : State) : Prop := ∃ evs, t.trace = s.trace ++ evs ∧ ∀ e ∈ evs, P e

theorem Emits.refl {P : Event → Prop} (s : State) : Emits P s s := ⟨[], by simp, by simp⟩

theorem Emits.trans {P : Event → Prop} {u : State} (h : Emits P s t) (h' : Emits P t u) : Emits P s u := by
  obtain ⟨xs, ht, hxs⟩ := h
  obtain ⟨ys, hu, hys⟩ := h'
  refine ⟨xs ++ ys, by rw [hu, ht, List.append_assoc], fun e he => ?_⟩
  exact (List.mem_append.mp he).elim (hxs e) (hys e)

theorem Emits.mono {P Q : Event → Prop} (hPQ : ∀ e, P e → Q e) (h : Emits P s t) : Emits Q s t := by
  obtain ⟨evs, ht, hevs⟩ := h
  exact ⟨evs, ht, fun e he => hPQ e (hevs e he)⟩

/-- What is true of the events of one update in a session with configuration `c`: a LOG is emitted only with CFG.DEBUG = 1, an
attempt is of an allowed frame and goes to CFG.ADDR, and no RESP is emitted. -/
structure RunEvent (F : Frame → Prop) (c : Cfg) (e : Event) : Prop where
  log : isLog e = true → c.debug = true
  frame : ∀ a f st, e = .frame a f st → a = c.addr ∧ F f
  resp : isResp e = false

theorem Update.emits (h : Update F P s t) : Emits (RunEvent F s.cfg) s t := by
  cases h
  case deliver f rest hf => exact ⟨[_], rfl, by simpa using ⟨by simp [isLog], by simp +contextual [hf], rfl⟩⟩
  case fail f st rest hf hst => exact ⟨[_], rfl, by simpa using ⟨by simp [isLog], by simp +contextual [hf], rfl⟩⟩
  case log k info =>
    refine ⟨_, logEvent_trace k info s, ?_⟩
    cases hd : s.cfg.debug <;> simp
    exact ⟨fun _ => hd, by simp, rfl⟩
  case delay d => exact ⟨[_], rfl, by simpa using ⟨by simp [isLog], by simp, rfl⟩⟩
  case claim ok rest hp => exact ⟨[_], rfl, by simpa using ⟨by simp [isLog], by simp, rfl⟩⟩
  case release hp => exact ⟨[_], rfl, by simpa using ⟨by simp [isLog], by simp, rfl⟩⟩
  all_goals exact ⟨[], by simp, by simp⟩

end

/-- A check emits only LOG events, and those with CFG.DEBUG = 1. -/
theorem Starts.emits {p : Plan} {s t : State} (h : Starts p s t) :
    Emits (fun e => isLog e = true ∧ s.cfg.debug = true) s t := by
  have hraise (e : ErrorKind) (info : Half) :
      Emits (fun e => isLog e = true ∧ s.cfg.debug = true) s (raiseError e info s) := by
    refine ⟨_, raiseError_trace e info s, ?_⟩
    cases e <;> cases s.cfg.debug <;> simp [errorLog, isLog]
  cases h with
  | illegal => exact hraise _ _
  | range e info => exact hraise e info
  | closed => exact hraise _ _
  | passes => exact ⟨[], by split <;> simp, by simp⟩

/-- Completion emits its RESP. -/
theorem complete_emits (s : State) : Emits (fun e => e = .resp (respCode s.seq)) s (complete s) :=
  ⟨[.resp (respCode s.seq)], rfl, by simp⟩

/-- Settles O51. -/
theorem noStepWritesTheConfiguration : Obligations.NoStepWritesTheConfiguration := by
  intro s t h
  exact step_rel (R := fun a b => b.cfg = a.cfg ∧ b.par = a.par) (fun _ => ⟨rfl, rfl⟩)
    (fun _ _ _ hab hbc => ⟨hbc.1.trans hab.1, hbc.2.trans hab.2⟩) (fun _ _ _ => ⟨rfl, rfl⟩) (fun _ _ _ h => h.cfg_par)
    (fun _ _ h => h.cfg_par) (fun _ => ⟨rfl, rfl⟩) h

/-- Settles O53. -/
theorem stickyFlagsAreOnlySetAndTraceOnlyGrows : Obligations.StickyFlagsAreOnlySetAndTraceOnlyGrows := by
  intro s t h
  obtain ⟨hunavailable, hillegal, hnotopen, hnotready, hdropped, hgeometry, hslot⟩ : KeepsFlags s t :=
    step_rel (R := KeepsFlags) (fun _ => by constructor <;> exact id) (fun _ _ _ => KeepsFlags.trans)
      (fun _ _ _ => by constructor <;> exact id) (fun _ _ _ h => h.keepsFlags) (fun _ _ h => h.keepsFlags)
      (fun _ => by constructor <;> exact id) h
  obtain ⟨evs, htrace, -⟩ : Emits (fun _ => True) s t :=
    step_rel Emits.refl (fun _ _ _ => Emits.trans) (fun _ _ s => Emits.refl s) (fun _ _ _ h => h.emits.mono fun _ _ => trivial)
      (fun _ _ h => h.emits.mono fun _ _ => trivial) (fun s => (complete_emits s).mono fun _ _ => trivial) h
  exact ⟨hunavailable, hillegal, hnotopen, hnotready, hdropped, hgeometry, hslot, evs, htrace⟩

/-! ## ERRCNT -/

/-- ERRCNT grows by the failed attempts among the events that extend the trace (10_state.md R25). -/
def CountsFailures (s t : State) : Prop :=
  ∃ evs, t.trace = s.trace ++ evs ∧ t.errcnt = satAdd32 s.errcnt (evs.countP isFailedAttempt)

theorem CountsFailures.trans {s t u : State} (h : CountsFailures s t) (h' : CountsFailures t u) : CountsFailures s u := by
  obtain ⟨xs, ht, hxs⟩ := h
  obtain ⟨ys, hu, hys⟩ := h'
  exact ⟨xs ++ ys, by rw [hu, ht, List.append_assoc], by rw [hys, hxs, satAdd32_satAdd32, List.countP_append]⟩

/-- Where no attempt has failed, ERRCNT is to be as it was. -/
theorem countsFailures_of_none {s t : State} (evs : List Event) (ht : t.trace = s.trace ++ evs)
    (hnone : ∀ e ∈ evs, isFailedAttempt e = false) (herr : t.errcnt = s.errcnt) : CountsFailures s t :=
  ⟨evs, ht, by rw [List.countP_eq_zero.mpr (by simpa using hnone), satAdd32_zero, herr]⟩

theorem Update.countsFailures {F : Frame → Prop} {P : Prim → Prop} {s t : State} (h : Update F P s t) :
    CountsFailures s t := by
  cases h
  case fail f st rest hf hst => exact ⟨[_], rfl, by simp [isFailedAttempt, hst, satInc32_eq_satAdd32]⟩
  case deliver f rest hf => exact countsFailures_of_none [_] rfl (by simp [isFailedAttempt]) rfl
  case log k info => exact countsFailures_of_none _ (logEvent_trace k info s) (by split <;> simp [isFailedAttempt]) (by simp)
  case delay d => exact countsFailures_of_none [_] rfl (by simp [isFailedAttempt]) rfl
  case claim ok rest hp => exact countsFailures_of_none [_] rfl (by simp [isFailedAttempt]) rfl
  case release hp => exact countsFailures_of_none [_] rfl (by simp [isFailedAttempt]) rfl
  all_goals exact countsFailures_of_none [] (by simp) (by simp) (by simp)

theorem Starts.countsFailures {p : Plan} {s t : State} (h : Starts p s t) : CountsFailures s t := by
  obtain ⟨⟨logs, ht, hlogs⟩, r, hr⟩ := h.frame
  refine countsFailures_of_none logs ht (fun e he => ?_) (by rw [hr])
  have hlog := hlogs e he
  cases e <;> first | rfl | cases hlog

/-- Settles O54. -/
theorem errcntCountsEveryFailedAttempt : Obligations.ErrcntCountsEveryFailedAttempt := by
  intro s t h
  have hnone (s t : State) (ht : t.trace = s.trace) (herr : t.errcnt = s.errcnt) : CountsFailures s t :=
    countsFailures_of_none [] (by simp [ht]) (by simp) herr
  exact step_rel (R := CountsFailures) (fun s => hnone s s rfl rfl) (fun _ _ _ => CountsFailures.trans)
    (fun _ _ s => hnone s _ rfl rfl) (fun _ _ _ h => h.countsFailures) (fun _ _ h => h.countsFailures)
    (fun s => countsFailures_of_none [_] rfl (by simp [isFailedAttempt]) rfl) h

/-! ## RESP -/

/-- No RESP has been emitted between `s` and `t`, and LAST_RESP is as it was. -/
def Unanswered (s t : State) : Prop := t.lastResp = s.lastResp ∧ Emits (fun e => isResp e = false) s t

theorem Unanswered.refl (s : State) : Unanswered s s := ⟨rfl, Emits.refl s⟩

theorem Unanswered.trans {s t u : State} (h : Unanswered s t) (h' : Unanswered t u) : Unanswered s u :=
  ⟨h'.1.trans h.1, h.2.trans h'.2⟩

theorem Update.unanswered {F : Frame → Prop} {P : Prim → Prop} {s t : State} (h : Update F P s t) : Unanswered s t :=
  ⟨by cases h <;> simp, h.emits.mono fun _ he => he.resp⟩

theorem Starts.unanswered {p : Plan} {s t : State} (h : Starts p s t) : Unanswered s t := by
  obtain ⟨-, r, hr⟩ := h.frame
  refine ⟨by rw [hr], h.emits.mono fun e he => ?_⟩
  cases e <;> first | rfl | cases he.1

theorem Update.busy {F : Frame → Prop} {P : Prim → Prop} {s t : State} (h : Update F P s t) : t.busy = s.busy := by
  cases h <;> simp

theorem Updates.busy {F : Frame → Prop} {P : Prim → Prop} {s t : State} (h : Updates F P s t) : t.busy = s.busy :=
  h.induct (R := fun s t => t.busy = s.busy) (fun _ => rfl) (fun _ _ _ hst htu => htu.trans hst) fun _ _ h => h.busy

theorem Starts.busy {p : Plan} {s t : State} (h : Starts p s t) : t.busy = s.busy := by
  obtain ⟨-, r, hr⟩ := h.frame
  rw [hr]

/-- What O55 says of a step of a request from `s`. -/
def AnswersOnce (s t : State) : Prop :=
  (t.busy = false → ∃ evs, t.trace = s.trace ++ evs ++ [.resp t.lastResp] ∧ evs.countP isResp = 0)
  ∧ (t.busy = true → t.lastResp = s.lastResp ∧ ∃ evs, t.trace = s.trace ++ evs ∧ evs.countP isResp = 0)

/-- A run that completes emits RESP last, and one that waits has emitted none. -/
theorem Advances.answersOnce {F : Frame → Prop} {P : Prim → Prop} {ps : List Prim} {s u t : State} (hu : Unanswered s u)
    (hbusy : u.busy = true) (h : Advances F P ps u t) : AnswersOnce s t := by
  have hcount {evs : List Event} (hevs : ∀ e ∈ evs, isResp e = false) : evs.countP isResp = 0 :=
    List.countP_eq_zero.mpr (by simpa using hevs)
  rcases h with ⟨v, huv, rfl⟩ | ⟨v, p, before, after, -, huv, -, -, rfl⟩
  all_goals
    have hrun : Unanswered u v := huv.induct Unanswered.refl (fun _ _ _ => Unanswered.trans) fun _ _ h => h.unanswered
    obtain ⟨hlast, evs, htrace, hevs⟩ := hu.trans hrun
  · refine ⟨fun _ => ⟨evs, ?_, hcount hevs⟩, nofun⟩
    rw [complete_trace, complete_lastResp, htrace]
  · refine ⟨fun hidle => ?_, fun _ => ⟨hlast, evs, htrace, hcount hevs⟩⟩
    cases hidle.symm.trans (huv.busy.trans hbusy)

/-- Settles O55. -/
theorem everyRequestAnswersOnceAsItCompletes : Obligations.EveryRequestAnswersOnceAsItCompletes := by
  intro s t hactive h
  change AnswersOnce s t
  have hF (m : Byte) : FramesOk (fun _ => True) (fun _ => True) m := fun _ _ _ _ _ => trivial
  rcases step_cases h with ⟨hidle, hnone, -⟩ | ⟨w, ws, p, hidle, -, hreq, -⟩ | ⟨hbusy, hres⟩
  · rcases hactive with hbusy | hsome
    · cases hidle.symm.trans hbusy
    · exact absurd hnone hsome
  · obtain ⟨u, hstart, hrun⟩ := request_advances (fun _ => hF _) (fun _ _ => trivial) trivial (hF _)
      (s := { s with requests := ws }) hidle hreq
    exact hrun.answersOnce (s := s) hstart.unanswered (hstart.busy.trans rfl)
  · exact (resume_advances (fun _ => hF _) (fun _ _ => trivial) (fun _ => trivial) (hF _) (fun _ _ => trivial)
      (fun _ => trivial) hres).answersOnce (Unanswered.refl s) hbusy

end Sys2Proof.Machine
end

section
/-! PROOFS. Two runs that differ only in what no request reads: CFG.DEBUG and the LOG events (60_exceptions.md R213), or the
records of 10_state.md R25 to R29. Both are one argument about a function that forgets such a part of the state. -/

namespace Sys2Proof.Machine

/-! ## The primitives that take an input, by what is offered -/

theorem sendNextPayload_nil {s : State} (h : s.payload = []) : sendNextPayload s = .blocked (setPhase .payloadSend s) := by
  simp [sendNextPayload, h]

theorem sendNextPayload_cons {s : State} {b : Byte} {rest : List Byte} (h : s.payload = b :: rest) :
    sendNextPayload s = sendFrame (encodeByte b true s.blMask) { s with payload := rest } := by
  simp [sendNextPayload, h, sendDataByte]

theorem dropNextPayload_nil {s : State} (h : s.payload = []) : dropNextPayload s = .blocked (setPhase .payloadDrop s) := by
  simp [dropNextPayload, h]

theorem dropNextPayload_cons {s : State} {b : Byte} {rest : List Byte} (h : s.payload = b :: rest) :
    dropNextPayload s = .done { s with payload := rest } := by
  simp [dropNextPayload, h]

/-- The claim answered with `ok`, its event emitted. -/
def claimAnswered (ok : Bool) (rest : List Bool) (s : State) : State :=
  emit (.claim s.cfg.addr s.cfg.speed ok) { s with claims := rest }

theorem claimBus_nil {s : State} (h : s.claims = []) : claimBus s = .blocked (setPhase .claiming s) := by
  simp [claimBus, h]

theorem claimBus_cons {s : State} {ok : Bool} {rest : List Bool} (h : s.claims = ok :: rest) : claimBus s = .done
    (if ok then { claimAnswered ok rest s with busOpen := true }
      else raiseError .busUnavailable (s.cfg.addr.setWidth 16) (claimAnswered ok rest s)) := by
  cases ok <;> simp [claimBus, h, claimAnswered]

/-! ## Functions that forget what no step reads -/

/-- What `g` leaves, `f` aside, is the same when `f` is applied before `g`. -/
def Respects (f g : State → State) : Prop := ∀ s, f (g s) = f (g (f s))

/-- `f` keeps every register and input that a step reads, the primitives left to run aside, and every update of a step respects
it. -/
structure Forgets (f : State → State) : Prop where
  cfg : ∀ s, { (f s).cfg with debug := s.cfg.debug } = s.cfg
  par : ∀ s, (f s).par = s.par
  blMask : ∀ s, (f s).blMask = s.blMask
  busOpen : ∀ s, (f s).busOpen = s.busOpen
  busy : ∀ s, (f s).busy = s.busy
  phase : ∀ s, (f s).seq.phase = s.seq.phase
  requests : ∀ s, (f s).requests = s.requests
  payload : ∀ s, (f s).payload = s.payload
  statuses : ∀ s, (f s).statuses = s.statuses
  claims : ∀ s, (f s).claims = s.claims
  ticks : ∀ s, (f s).ticks = s.ticks
  idem : ∀ s, f (f s) = f s
  answered : ∀ fr st rest, Respects f (answered fr st rest)
  countFailure : Respects f countFailure
  logEvent : ∀ k info, Respects f (logEvent k info)
  drop : Respects f fun s => { s with fFrameDropped := true, seq := { s.seq with dropped := true } }
  delay : ∀ d, Respects f (emit (.delay d))
  setPhase : ∀ p, Respects f (setPhase p)
  setTodo : ∀ ps, Respects f fun s => { s with seq := { s.seq with todo := ps } }
  setRaised : ∀ e, Respects f fun s => { s with seq := { s.seq with raised := some e } }
  setTicks : ∀ n, Respects f fun s => { s with ticks := n }
  setPayload : ∀ bs, Respects f fun s => { s with payload := bs }
  setRequests : ∀ ws, Respects f fun s => { s with requests := ws }
  claimed : ∀ ok rest, Respects f (claimAnswered ok rest)
  opened : Respects f fun s => { s with busOpen := true }
  setErrorFlag : ∀ e, Respects f (setErrorFlag e)
  setInitState : ∀ st, Respects f fun s => { s with initState := st }
  setCursorType : ∀ ct, Respects f fun s => { s with cursorType := ct, ctValid := true }
  setEntryMode : ∀ m, Respects f fun s => { s with entryMode := m, emValid := true }
  setBacklight : ∀ on, Respects f fun s => { s with blMask := blMaskOf on }
  releaseBus : Respects f releaseBus
  markNotReady : Respects f markNotReady
  accept : ∀ w, Respects f (accept w)
  complete : Respects f complete

theorem forgets_withoutRecords : Forgets withoutRecords := by
  constructor
  case logEvent => intro k info s; simp only [logEvent_eq]; rfl
  case setErrorFlag => rintro (_ | _) s <;> rfl
  all_goals (try unfold Respects); intros; rfl

theorem forgets_withoutDebug : Forgets withoutDebug := by
  constructor
  case logEvent => intro k info s; cases h : s.cfg.debug <;> simp [logEvent_eq, withoutDebug, h, isLog]
  case setErrorFlag => rintro (_ | _) s <;> simp [withoutDebug, setErrorFlag]
  all_goals (try unfold Respects); intros; simp [withoutDebug, claimAnswered]

theorem Respects.comp {f g h : State → State} (hg : Respects f g) (hh : Respects f h) : Respects f (h ∘ g) := by
  intro s
  calc f (h (g s)) = f (h (f (g s))) := hh _
    _ = f (h (f (g (f s)))) := by rw [hg]
    _ = f (h (g (f s))) := (hh _).symm

/-- Two states that `f` makes one stay so. -/
theorem Respects.congr {f g : State → State} (hg : Respects f g) {s s' : State} (h : f s = f s') : f (g s) = f (g s') := by
  rw [hg s, h, ← hg s']

/-! ## Primitives -/

/-- The progress with the state it holds mapped. -/
def mapProgress (f : State → State) : Progress → Progress
  | .done t => .done (f t)
  | .blocked t => .blocked (f t)

/-- `Respects` for an operation that may wait. -/
def RespectsP (f : State → State) (g : State → Progress) : Prop :=
  ∀ s, mapProgress f (g s) = mapProgress f (g (f s))

theorem RespectsP.congr {f : State → State} {g : State → Progress} (hg : RespectsP f g) {s s' : State} (h : f s = f s') :
    mapProgress f (g s) = mapProgress f (g s') := by
  rw [hg s, h, ← hg s']

/-- Two runs of a primitive end alike, in states that `f` makes one. -/
theorem mapProgress_eq {f : State → State} {g g' : Progress} (h : mapProgress f g = mapProgress f g') :
    (∃ t t', g = .done t ∧ g' = .done t' ∧ f t = f t') ∨ ∃ t t', g = .blocked t ∧ g' = .blocked t' ∧ f t = f t' := by
  cases g <;> cases g' <;> simp_all [mapProgress]

section
variable {f : State → State} (hf : Forgets f)
include hf

/-- The configuration that a step reads beside CFG.DEBUG. -/
theorem Forgets.cfg_reads (s : State) : (f s).cfg.addr = s.cfg.addr ∧ (f s).cfg.retryLimit = s.cfg.retryLimit
    ∧ (f s).cfg.retryDelayMs = s.cfg.retryDelayMs ∧ (f s).cfg.rows = s.cfg.rows ∧ (f s).cfg.cols = s.cfg.cols := by
  rw [← hf.cfg s]
  exact ⟨rfl, rfl, rfl, rfl, rfl⟩

theorem Forgets.dropFrame (st : Byte) : Respects f (dropFrame st) := hf.drop.comp (hf.logEvent _ _)

theorem Forgets.raiseError (e : ErrorKind) (info : Half) : Respects f (raiseError e info) := by
  cases hlog : errorLog e with
  | none =>
    intro s
    simpa [Machine.raiseError, hlog] using (hf.setErrorFlag e).comp (hf.setRaised e) s
  | some k =>
    intro s
    simpa [Machine.raiseError, hlog] using ((hf.setErrorFlag e).comp (hf.logEvent k info)).comp (hf.setRaised e) s

theorem Forgets.countTicks (left : Nat) (ph : Nat → Phase) : RespectsP f (countTicks left ph) := by
  intro s
  simp only [Machine.countTicks, hf.ticks]
  split
  · exact congrArg Progress.done (hf.setTicks _ s)
  · exact congrArg Progress.blocked ((hf.setTicks 0).comp (hf.setPhase _) s)

theorem Forgets.doWait (d : Half) (ph : Nat → Phase) : RespectsP f (doWait d ph) := by
  intro s
  unfold Machine.doWait
  split
  · exact congrArg Progress.done (hf.idem s).symm
  · exact (hf.countTicks _ ph).congr (hf.delay d s)

/-- SendFrame's loop reads the statuses, the limit and the delay, all of which `f` keeps. -/
theorem Forgets.attempts (fr : Frame) (sts : List Byte) (n : Half) : RespectsP f (attempts fr sts n) := by
  intro s
  induction sts generalizing n s with
  | nil => exact congrArg Progress.blocked (hf.setPhase _ s)
  | cons st rest ih =>
    obtain ⟨-, hlimit, hdelay, -⟩ := hf.cfg_reads s
    have hfail := (hf.answered fr st rest).comp hf.countFailure
    simp only [Machine.attempts, hlimit, hdelay]
    split_ifs
    · exact congrArg Progress.done (hf.answered fr st rest s)
    · exact congrArg Progress.done (hfail.comp (hf.dropFrame st) s)
    · have hwait := (hf.doWait s.cfg.retryDelayMs (.retryWait fr (satInc16 n))).congr
        (hfail.comp (hf.logEvent .retry (st ++ capByte (satInc16 n))) s)
      simp only [Function.comp] at hwait
      rcases mapProgress_eq hwait with ⟨t, t', ht, ht', htt⟩ | ⟨t, t', ht, ht', htt⟩ <;> rw [ht, ht']
      · exact (ih (satInc16 n) t).trans (htt ▸ (ih (satInc16 n) t').symm)
      · exact congrArg Progress.blocked htt

theorem Forgets.sendFrame (fr : Frame) : RespectsP f (sendFrame fr) := by
  intro s
  simp only [Machine.sendFrame, hf.statuses]
  exact hf.attempts fr s.statuses 0#16 s

theorem Forgets.sendNextPayload : RespectsP f sendNextPayload := by
  intro s
  cases hp : s.payload with
  | nil =>
    rw [sendNextPayload_nil hp, sendNextPayload_nil ((hf.payload s).trans hp)]
    exact congrArg Progress.blocked (hf.setPhase _ s)
  | cons b rest =>
    have hframe : encodeByte b true (f s).blMask = encodeByte b true s.blMask := by rw [hf.blMask]
    rw [sendNextPayload_cons hp, sendNextPayload_cons ((hf.payload s).trans hp), hframe]
    exact (hf.sendFrame _).congr (hf.setPayload rest s)

theorem Forgets.dropNextPayload : RespectsP f dropNextPayload := by
  intro s
  cases hp : s.payload with
  | nil =>
    rw [dropNextPayload_nil hp, dropNextPayload_nil ((hf.payload s).trans hp)]
    exact congrArg Progress.blocked (hf.setPhase _ s)
  | cons b rest =>
    rw [dropNextPayload_cons hp, dropNextPayload_cons ((hf.payload s).trans hp)]
    exact congrArg Progress.done (hf.setPayload rest s)

theorem Forgets.claimBus : RespectsP f claimBus := by
  intro s
  cases hc : s.claims with
  | nil =>
    rw [claimBus_nil hc, claimBus_nil ((hf.claims s).trans hc)]
    exact congrArg Progress.blocked (hf.setPhase _ s)
  | cons ok rest =>
    have hclaim := hf.claimed ok rest
    rw [claimBus_cons hc, claimBus_cons ((hf.claims s).trans hc), (hf.cfg_reads s).1]
    cases ok
    · exact congrArg Progress.done (hclaim.comp (hf.raiseError _ _) s)
    · exact congrArg Progress.done (hclaim.comp hf.opened s)

theorem Forgets.runPrim (p : Prim) : RespectsP f (runPrim p) := by
  intro s
  cases p
  case sendCmd b => simpa only [Machine.runPrim, sendCommand, hf.blMask] using hf.sendFrame _ s
  case sendData b => simpa only [Machine.runPrim, sendDataByte, hf.blMask] using hf.sendFrame _ s
  case sendPayload => exact hf.sendNextPayload s
  case dropPayload => exact hf.dropNextPayload s
  case wait d => exact hf.doWait d _ s
  case setInitState st => exact congrArg Progress.done (hf.setInitState st s)
  case setCursorType ct => exact congrArg Progress.done (hf.setCursorType ct s)
  case setEntryMode m => exact congrArg Progress.done (hf.setEntryMode m s)
  case setBacklight on => exact congrArg Progress.done (hf.setBacklight on s)
  case claimBus => exact hf.claimBus s
  case releaseBus => exact congrArg Progress.done (hf.releaseBus s)

theorem Forgets.retryAgain (fr : Frame) (n : Half) {g g' : Progress} (h : mapProgress f g = mapProgress f g') :
    mapProgress f (retryAgain fr n g) = mapProgress f (retryAgain fr n g') := by
  rcases mapProgress_eq h with ⟨t, t', rfl, rfl, htt⟩ | ⟨t, t', rfl, rfl, -⟩
  · have hsts : t.statuses = t'.statuses := by rw [← hf.statuses t, htt, hf.statuses]
    rw [Machine.retryAgain, Machine.retryAgain, hsts]
    exact (hf.attempts fr _ n).congr htt
  · exact h

/-! ## Runs and steps -/

theorem Forgets.run (ps : List Prim) : Respects f (run ps) := by
  intro s
  induction ps generalizing s with
  | nil => exact hf.complete s
  | cons p ps ih =>
    rw [run_cons, run_cons]
    rcases mapProgress_eq (hf.runPrim p s) with ⟨t, t', ht, ht', htt⟩ | ⟨t, t', ht, ht', htt⟩ <;> rw [ht, ht']
    · exact (ih t).trans (htt ▸ (ih t').symm)
    · exact (hf.setTodo ps).congr htt

theorem Forgets.continueRun (ps : List Prim) {g g' : Progress} (h : mapProgress f g = mapProgress f g') :
    f (continueRun ps g) = f (continueRun ps g') := by
  rcases mapProgress_eq h with ⟨t, t', rfl, rfl, htt⟩ | ⟨t, t', rfl, rfl, htt⟩
  · exact (hf.run ps).congr htt
  · exact (hf.setTodo ps).congr htt

theorem Forgets.checked (p : Plan) : Respects f (checked p) := by
  have hend (e : ErrorKind) (info : Half) : Respects f (endWith e info p.word) := (hf.raiseError e info).comp (hf.run _)
  have hbody : Respects f (runBody p) := by
    intro s
    unfold runBody
    split
    · exact hf.markNotReady.comp (hf.run _) s
    · exact hf.run _ s
  intro s
  simp only [Machine.checked, hf.busOpen]
  split
  · exact hend _ _ s
  · split
    · exact hend _ _ s
    · split
      · exact hend _ _ s
      · exact hbody s

theorem Forgets.request (p : Plan) (s : State) : mapOutcome f (request p s) = mapOutcome f (request p (f s)) := by
  simp only [Machine.request, hf.busy]
  split
  · exact congrArg Host.Outcome.next (hf.idem s).symm
  · exact congrArg Host.Outcome.next ((hf.accept p.word).comp (hf.checked p) s)

theorem Forgets.runWord (w : ReqWord) (s : State) : mapOutcome f (runWord w s) = mapOutcome f (runWord w (f s)) := by
  obtain ⟨-, -, -, hrows, hcols⟩ := hf.cfg_reads s
  unfold Machine.runWord
  split
  · next i _ =>
    rw [exec_eq_request, exec_eq_request, planFor_congr i hrows hcols (hf.par s) (hf.busOpen s)]
    exact hf.request _ s
  · exact hf.request _ s

/-- The primitive in progress goes on as its phase says, with inputs that `f` keeps. -/
theorem Forgets.goOn : RespectsP f goOn := by
  intro s
  have hstart := hf.setPhase .start s
  simp only [Machine.goOn, hf.phase, hf.statuses]
  split
  · exact congrArg Progress.done hstart
  · exact (hf.attempts _ _ _).congr hstart
  · exact hf.retryAgain _ _ ((hf.countTicks _ _).congr hstart)
  · exact (hf.countTicks _ _).congr hstart
  · exact hf.claimBus.congr hstart
  · exact hf.sendNextPayload.congr hstart
  · exact hf.dropNextPayload.congr hstart

section
variable (htodo : ∀ s, (f s).seq.todo = s.seq.todo)
include htodo

theorem Forgets.resume (s : State) : mapOutcome f (resume s) = mapOutcome f (resume (f s)) := by
  have hstuck : stuckOn (f s) = stuckOn s := by
    simp only [stuckOn, hf.phase, hf.statuses, hf.ticks, hf.claims, hf.payload]
  rw [resume_eq, resume_eq, hstuck, htodo]
  cases stuckOn s
  · exact congrArg Host.Outcome.next (hf.continueRun _ (hf.goOn s))
  · rfl

theorem Forgets.step (s : State) : mapOutcome f (step s) = mapOutcome f (step (f s)) := by
  have hbusy := hf.busy s
  have hoffered := hf.requests s
  cases hb : s.busy with
  | true =>
    rw [step_of_busy hb, step_of_busy (hbusy.trans hb)]
    exact hf.resume htodo s
  | false =>
    cases hr : s.requests with
    | nil =>
      have hwait := idleStepWaitsAndAPlacedWordIsRunNext.1
      rw [hwait s hb hr, hwait (f s) (hbusy.trans hb) (hoffered.trans hr)]
      exact congrArg Host.Outcome.next (hf.idem s).symm
    | cons w ws =>
      rw [step_idle hb hr, step_idle (hbusy.trans hb) (hoffered.trans hr), hf.runWord, hf.setRequests ws s, ← hf.runWord]

end

end

/-- Settles O58. -/
theorem recordsInfluenceNoRequest : Obligations.RecordsInfluenceNoRequest :=
  forgets_withoutRecords.step fun _ => rfl

/-- CFG is as it was, and a LOG is emitted only with CFG.DEBUG = 1. -/
def LogsInDebug (s t : State) : Prop := t.cfg = s.cfg ∧ Emits (fun e => isLog e = true → s.cfg.debug = true) s t

theorem LogsInDebug.trans {s t u : State} (h : LogsInDebug s t) (h' : LogsInDebug t u) : LogsInDebug s u :=
  ⟨h'.1.trans h.1, h.2.trans (h.1 ▸ h'.2)⟩

/-- Settles O57: a step emits LOG only with CFG.DEBUG = 1, and the second clause is `Forgets.step`. -/
theorem debugFlagOnlyAddsLogEvents : Obligations.DebugFlagOnlyAddsLogEvents := by
  refine ⟨fun s t hdebug h => ?_, forgets_withoutDebug.step fun _ => rfl⟩
  obtain ⟨-, evs, htrace, hevs⟩ := step_rel (R := LogsInDebug) (fun s => ⟨rfl, Emits.refl s⟩) (fun _ _ _ => LogsInDebug.trans)
    (fun _ _ s => ⟨rfl, Emits.refl s⟩) (fun _ _ _ h => ⟨h.cfg_par.1, h.emits.mono fun _ he _ => he.2⟩)
    (fun _ _ h => ⟨h.cfg_par.1, h.emits.mono fun _ he => he.log⟩)
    (fun s => ⟨rfl, (complete_emits s).mono fun _ he hlog => by rw [he] at hlog; cases hlog⟩) h
  exact ⟨evs, htrace, fun e he => by simpa [hdebug] using hevs e he⟩

end Sys2Proof.Machine
end

section
/-! PROOFS. The invariant of the block (10_state.md R22 to R31; 42_init.md R141): a run keeps a stronger condition, which says
what is left to run, primitive by primitive. -/

namespace Sys2Proof.Machine

/-! ## The registers that primitives write -/

/-- The registers that primitives write beside the records of what happened (10_state.md R22 to R24, R28). -/
structure Regs where
  blMask : Byte
  busOpen : Bool
  initState : InitState
  cursorType : BitVec 2
  ctValid : Bool
  entryMode : BitVec 2
  emValid : Bool

def regs (s : State) : Regs := ⟨s.blMask, s.busOpen, s.initState, s.cursorType, s.ctValid, s.entryMode, s.emValid⟩

/-- The registers after a primitive, a claim aside. -/
def writes : Prim → Regs → Regs
  | .setInitState st, r => { r with initState := st }
  | .setCursorType ct, r => { r with cursorType := ct, ctValid := true }
  | .setEntryMode m, r => { r with entryMode := m, emValid := true }
  | .setBacklight on, r => { r with blMask := blMaskOf on }
  | .releaseBus, r => { r with busOpen := false }
  | _, r => r

section
variable {F : Frame → Prop} {P : Prim → Prop} {s t : State}

/-- Updates by primitives that write no register leave the registers. -/
theorem Updates.regs_eq (hclaim : ¬ P .claimBus) (hP : ∀ p, P p → ∀ r, writes p r = r) (h : Updates F P s t) :
    regs t = regs s := by
  refine h.induct (R := fun a b => regs b = regs a) (fun _ => rfl) (fun _ _ _ hst htu => htu.trans hst) fun a b hab => ?_
  cases hab
  case opened hp => exact absurd hp hclaim
  case unavailable hp => exact absurd hp hclaim
  case initState st hp => exact hP _ hp (regs a)
  case cursorType ct hp => exact hP _ hp (regs a)
  case entryMode m hp => exact hP _ hp (regs a)
  case backlight on hp => exact hP _ hp (regs a)
  case release hp => exact hP _ hp (regs a)
  all_goals simp [regs]

theorem Update.word (h : Update F P s t) : t.seq.word = s.seq.word := by
  cases h <;> simp_all

theorem Updates.word (h : Updates F P s t) : t.seq.word = s.seq.word :=
  h.induct (R := fun s t => t.seq.word = s.seq.word) (fun _ => rfl) (fun _ _ _ hst htu => htu.trans hst) fun _ _ h => h.word

theorem Updates.cfg_par (h : Updates F P s t) : t.cfg = s.cfg ∧ t.par = s.par :=
  h.induct (R := fun s t => t.cfg = s.cfg ∧ t.par = s.par) (fun _ => ⟨rfl, rfl⟩)
    (fun _ _ _ hst htu => ⟨htu.1.trans hst.1, htu.2.trans hst.2⟩) fun _ _ h => h.cfg_par

theorem Updates.unanswered (h : Updates F P s t) : Unanswered s t :=
  h.induct Unanswered.refl (fun _ _ _ => Unanswered.trans) fun _ _ h => h.unanswered

theorem Updates.emits (h : Updates F P s t) : Emits (RunEvent F s.cfg) s t := by
  refine (h.induct (R := fun s t => t.cfg = s.cfg ∧ Emits (RunEvent F s.cfg) s t) (fun s => ⟨rfl, Emits.refl s⟩) ?_
    fun _ _ h => ⟨h.cfg_par.1, h.emits⟩).2
  rintro a b c ⟨hab, hevs⟩ ⟨hbc, hevs'⟩
  exact ⟨hbc.trans hab, hevs.trans (hab ▸ hevs')⟩

end

/-- A primitive that waits is one that sends, waits, claims or takes payload, and none of these writes a register. -/
theorem BlockedPhase.writes {p : Prim} {ph : Phase} (h : BlockedPhase p ph) (r : Regs) : writes p r = r := by
  cases p <;> first | rfl | cases h

/-- What a primitive leaves in the registers. -/
theorem runPrim_regs {p : Prim} {s t : State} (hp : p ≠ .claimBus) (h : runPrim p s = .done t) :
    regs t = writes p (regs s) := by
  have hspec := (runPrim_spec (F := fun _ => True) (P := (· = p)) p rfl s fun _ _ _ => trivial).1
  rw [h] at hspec
  cases p
  case setInitState | setCursorType | setEntryMode | setBacklight | releaseBus => cases h; rfl
  case claimBus => exact absurd rfl hp
  all_goals
    refine hspec.regs_eq (by simp) fun q hq r => ?_
    rw [hq]
    rfl

/-! ## A request in progress -/

/-- A step of a request in progress that is not stuck. -/
theorem resume_eq_goOn {s t : State} (h : resume s = .next t) :
    stuckOn s = none ∧ t = continueRun s.seq.todo (goOn s) := by
  rw [resume_eq] at h
  cases hs : stuckOn s <;> rw [hs] at h <;> cases h
  exact ⟨rfl, rfl⟩

/-- A primitive whose frame is in flight may wait with a frame in flight again. -/
theorem BlockedPhase.of_inFlight {p : Prim} {ph ph' : Phase} {f f' : Frame} (h : BlockedPhase p ph)
    (hf : inFlight ph = some f) (hf' : inFlight ph' = some f') : BlockedPhase p ph' := by
  cases p
  case sendCmd | sendData => exact ⟨f', hf'⟩
  case sendPayload => exact .inr ⟨f', hf'⟩
  case wait d => obtain ⟨k, rfl⟩ := h; cases hf
  case dropPayload | claimBus => cases h; cases hf
  all_goals cases h

/-- What the primitive in progress can do, in the terms of `runPrim_spec`. -/
theorem goOn_spec {F : Frame → Prop} {P : Prim → Prop} {s : State} {p : Prim} (hp : BlockedPhase p s.seq.phase) (hP : P p)
    (hf : ∀ f, inFlight s.seq.phase = some f → F f) (hF : sendsFrame p = true → ∀ b rs, F (encodeByte b rs s.blMask)) :
    Updates F P s (goOn s).state ∧ ∀ t, goOn s = .blocked t → BlockedPhase p t.seq.phase ∧
      ∀ f, inFlight t.seq.phase = some f → F f := by
  have hstart : Updates F P s (setPhase .start s) := setPhase_updates _ s
  have hrun := runPrim_spec p hP (setPhase .start s) hF
  have hflight {f : Frame} (h : inFlight s.seq.phase = some f) (g : Progress)
      (hg : Updates F P (setPhase .start s) g.state ∧ ∀ t, g = .blocked t → inFlight t.seq.phase = some f) :
      Updates F P s g.state ∧ ∀ t, g = .blocked t → BlockedPhase p t.seq.phase ∧
        ∀ f, inFlight t.seq.phase = some f → F f := by
    refine ⟨hstart.trans hg.1, fun t ht => ⟨hp.of_inFlight h (hg.2 t ht), fun f' hf' => ?_⟩⟩
    rw [hg.2 t ht] at hf'
    cases hf'
    exact hf f h
  cases hph : s.seq.phase with
  | start => rw [hph] at hp; cases p <;> simp [BlockedPhase, inFlight] at hp
  | attempt f n =>
    have h : inFlight s.seq.phase = some f := by rw [hph]; rfl
    simp only [goOn, hph]
    exact hflight h _ (attempts_spec (hf f h) _ _ _)
  | retryWait f n left =>
    have h : inFlight s.seq.phase = some f := by rw [hph]; rfl
    simp only [goOn, hph]
    exact hflight h _ (retryAgain_spec (hf f h) _ _ _)
  | waiting left =>
    obtain ⟨d, rfl⟩ : ∃ d, p = .wait d := by rw [hph] at hp; cases p <;> simp [BlockedPhase, inFlight] at hp ⊢
    have h := countTicks_spec (F := F) (P := P) left .waiting (setPhase .start s)
    simp only [goOn, hph]
    refine ⟨hstart.trans h.1, fun t ht => ?_⟩
    obtain ⟨k, hk⟩ := h.2 t ht
    exact ⟨⟨k, hk⟩, by simp [hk, inFlight]⟩
  | claiming =>
    obtain rfl : p = .claimBus := by rw [hph] at hp; cases p <;> simp [BlockedPhase, inFlight] at hp ⊢
    simp only [goOn, hph]
    exact ⟨hstart.trans hrun.1, hrun.2⟩
  | payloadSend =>
    obtain rfl : p = .sendPayload := by rw [hph] at hp; cases p <;> simp [BlockedPhase, inFlight] at hp ⊢
    simp only [goOn, hph]
    exact ⟨hstart.trans hrun.1, hrun.2⟩
  | payloadDrop =>
    obtain rfl : p = .dropPayload := by rw [hph] at hp; cases p <;> simp [BlockedPhase, inFlight] at hp ⊢
    simp only [goOn, hph]
    exact ⟨hstart.trans hrun.1, hrun.2⟩

/-! ## What a run keeps -/

/-- The primitives that `ps` holds are the end of INIT's rule for some cursor type, and INIT_STATE is what those before them
left (42_init.md R140, R141). -/
def InitLeft (s : State) (ps : List Prim) : Prop :=
  ∃ ct before r, initBody s.par ct = before ++ ps ∧ s.initState = (before.foldl (fun r p => writes p r) r).initState

/-- What holds of a request in progress with the primitives `ps` left to run, the one in progress included: what `Inv` says
of it, before it is known where it stops. -/
structure Running (s : State) (ps : List Prim) : Prop where
  busy : s.busy = true
  mask : s.blMask = 0x0F#8 ∨ s.blMask = 0x07#8
  resp : s.lastResp ≠ 7#3
  traceShape : ∀ a f st, Event.frame a f st ∈ s.trace → frameShape f = true
  sending : ps.any sendsFrame = true → s.busOpen = true
  order : framesBeforeRelease ps = true
  claim : .claimBus ∈ ps → ps = [.claimBus] ∧ s.busOpen = false ∧ reqOpc s.seq.word = 0x01#8
  writers : ∀ p ∈ ps, mayRun (reqOpc s.seq.word) p = true
  init : reqOpc s.seq.word = 0x03#8 → ps = [] ∨ InitLeft s ps

theorem respCode_ne_seven (q : Seq) : respCode q ≠ 7#3 := by
  unfold respCode
  split
  · next e _ => cases e <;> decide
  · split <;> decide

theorem frameShape_encodeByte {bm : Byte} (hbm : bm = 0x0F#8 ∨ bm = 0x07#8) (b : Byte) (rs : Bool) :
    frameShape (encodeByte b rs bm) = true := by
  obtain ⟨h0, h1, h2, h3⟩ := lcdPins_encodeByte hbm b rs
  simp [frameShape, h0, h1, h2, h3]

/-- A request that has run its primitives completes in a state with the invariant. -/
theorem Running.complete {s : State} (h : Running s []) : Inv (complete s) where
  mask := h.mask
  resp := respCode_ne_seven s.seq
  idle := fun _ => rfl
  waits := nofun
  traceShape := fun a f st hmem => h.traceShape a f st (by simpa using hmem)
  flight := nofun
  sending := by simp [Seq.idle]
  order := rfl
  claiming := nofun
  noClaimLeft := nofun
  sender := by simp [Seq.idle, inFlight]
  writers := nofun
  initRest := nofun
  initState := nofun

/-- Where INIT may wait, INIT_STATE is what 42_init.md R141 gives for the frames not completed: checked at each of the nineteen
primitives of its rule. -/
theorem initBody_initState {par : Params} {ct : BitVec 2} {before after : List Prim} {p : Prim} {ph : Phase} (r : Regs)
    (hbody : initBody par ct = before ++ p :: after) (hp : waitsIn p ph) :
    (before.foldl (fun r p => writes p r) r).initState =
      initStateAt (after.countP sendsFrame + if (inFlight ph).isSome then 1 else 0) := by
  have hbefore : before = (initBody par ct).take before.length := by simp [hbody]
  have hafter : p :: after = (initBody par ct).drop before.length := by simp [hbody]
  have hlen : before.length < 19 := by
    have := congrArg List.length hbody
    simp [initBody] at this
    omega
  have hcount : after.countP sendsFrame + (if (inFlight ph).isSome then 1 else 0) = (p :: after).countP sendsFrame := by
    rcases hp with ⟨⟨b, rfl⟩, f, hf⟩ | ⟨⟨d, rfl⟩, left, rfl⟩
    · simp [List.countP_cons, sendsFrame, hf]
    · simp [sendsFrame, inFlight]
  rw [hcount, hafter]
  generalize before.length = k at *
  subst hbefore
  match k, hlen with
  | 0, _ | 9, _ | 12, _ | 14, _ | 15, _ | 18, _ =>
    obtain ⟨rfl, -⟩ := List.cons.inj hafter
    simp [waitsIn] at hp
  | 1, _ | 2, _ | 3, _ | 4, _ | 5, _ | 6, _ | 7, _ | 8, _ | 10, _ | 11, _ | 13, _ | 16, _ | 17, _ => rfl
  | n + 19, h => omega

section
variable {s : State} {p : Prim} {ps : List Prim}

/-- While a primitive that is not the last is in progress, it is no claim. -/
theorem Running.claimBus_notMem (h : Running s (p :: ps)) : .claimBus ∉ ps := by
  intro hmem
  have := (h.claim (by simp [hmem])).1
  simp_all

/-- A primitive that may wait in INIT waits there as `waitsIn` says. -/
theorem BlockedPhase.waitsIn_init {ct : BitVec 2} {ph : Phase} (h : BlockedPhase p ph) (hmem : p ∈ initBody s.par ct) :
    waitsIn p ph := by
  cases p
  case sendCmd b => exact .inl ⟨⟨b, rfl⟩, h⟩
  case wait d => exact .inr ⟨⟨d, rfl⟩, h⟩
  case sendData | sendPayload | dropPayload | claimBus => simp [initBody] at hmem
  all_goals cases h

/-- A primitive that waits with a frame in flight, or for a byte to send, is one that sends. -/
theorem BlockedPhase.sends {ph : Phase} (h : BlockedPhase p ph)
    (hph : (∃ f, inFlight ph = some f) ∨ ph = .payloadSend) : sendsFrame p = true := by
  cases p
  case sendCmd | sendData | sendPayload => rfl
  case wait d =>
    obtain ⟨k, rfl⟩ := h
    simp [inFlight] at hph
  case dropPayload | claimBus =>
    cases h
    simp [inFlight] at hph
  all_goals cases h

theorem BlockedPhase.ne_start (h : BlockedPhase p .start) : False := by
  cases p <;> simp [BlockedPhase, inFlight] at h

theorem BlockedPhase.eq_claimBus (h : BlockedPhase p .claiming) : p = .claimBus := by
  cases p <;> simp [BlockedPhase, inFlight] at h ⊢

/-- A primitive that sends is run by a request that may send. -/
theorem maySend_of_mayRun {opc : Byte} (h : mayRun opc p = true) (hp : sendsFrame p = true) : maySend opc = true := by
  cases p <;> first | exact h | cases hp

theorem writes_busOpen (hp : p ≠ .releaseBus) (r : Regs) : (writes p r).busOpen = r.busOpen := by
  cases p <;> first | rfl | exact absurd rfl hp

theorem writes_initState_congr {r r' : Regs} (h : r.initState = r'.initState) :
    (writes p r).initState = (writes p r').initState := by
  cases p <;> first | exact h | rfl

/-- What the primitive `p`, in progress at `s`, does. -/
structure Goes (p : Prim) (s : State) (g : Progress) : Prop where
  updates : Updates (frameShape · = true) (· = p) s g.state
  stops : ∀ t, g = .blocked t → BlockedPhase p t.seq.phase ∧ ∀ f, inFlight t.seq.phase = some f → frameShape f = true
  waits : ∀ t, g = .blocked t → regs t = regs s
  writes : ∀ t, g = .done t → p ≠ .claimBus → regs t = writes p (regs s)

section
variable {g : Progress} (h : Running s (p :: ps)) (hg : Goes p s g)
include h hg

/-- What a run keeps whatever its primitive does. -/
theorem Running.keeps : g.state.busy = true ∧ (g.state.blMask = 0x0F#8 ∨ g.state.blMask = 0x07#8) ∧ g.state.lastResp ≠ 7#3
    ∧ (∀ a f st, Event.frame a f st ∈ g.state.trace → frameShape f = true) ∧ g.state.seq.word = s.seq.word
    ∧ g.state.par = s.par := by
  have hup := hg.updates
  refine ⟨hup.busy.trans h.busy, ?mask, hup.unanswered.1.trans_ne h.resp, ?shape, hup.word, hup.cfg_par.2⟩
  case mask =>
    rcases hup.blMask with hm | ⟨on, hm⟩ <;> rw [hm]
    · exact h.mask
    · exact blMaskOf_legal on
  case shape =>
    obtain ⟨evs, htrace, hevs⟩ := hup.emits
    intro a f st hmem
    rw [htrace] at hmem
    rcases List.mem_append.mp hmem with hold | hnew
    · exact h.traceShape a f st hold
    · exact ((hevs _ hnew).frame a f st rfl).2

/-- A run goes on after a primitive that completed. -/
theorem Running.done {t : State} (ht : g = .done t) : Running t ps := by
  obtain ⟨hbusy, hmask, hresp, hshape, hword, hpar⟩ := h.keeps hg
  have horder := h.order
  simp only [framesBeforeRelease, Bool.and_eq_true, Bool.or_eq_true, bne_iff_ne, Bool.not_eq_true'] at horder
  subst ht
  refine
    { busy := hbusy, mask := hmask, resp := hresp, traceShape := hshape, order := horder.2
      claim := fun hmem => absurd hmem h.claimBus_notMem
      writers := fun q hq => hword ▸ h.writers q (by simp [hq]), sending := fun hps => ?_, init := fun hopc => ?_ }
  · have hclaim : p ≠ .claimBus := by
      rintro rfl
      have := (h.claim (by simp)).1
      simp_all
    have hrelease : p ≠ .releaseBus := horder.1.resolve_right (by simp [hps])
    have hregs := congrArg Regs.busOpen (hg.writes t rfl hclaim)
    exact (hregs.trans (writes_busOpen hrelease _)).trans (h.sending (by simp [hps]))
  · rcases h.init (hword ▸ hopc) with hnil | ⟨ct, before, r, hbody, hstate⟩
    · cases hnil
    · have hclaim : p ≠ .claimBus := by
        have hmem : p ∈ initBody s.par ct := by simp [hbody]
        rintro rfl
        simp [initBody] at hmem
      refine .inr ⟨ct, before ++ [p], r, by rw [← List.append_cons]; exact hpar ▸ hbody, ?_⟩
      have hregs := congrArg Regs.initState (hg.writes t rfl hclaim)
      rw [List.foldl_append]
      exact hregs.trans (writes_initState_congr hstate)

/-- A run that stops at a primitive stops in a state with the invariant. -/
theorem Running.blocked {t : State} (ht : g = .blocked t) : Inv { t with seq := { t.seq with todo := ps } } := by
  obtain ⟨hbusy, hmask, hresp, hshape, hword, hpar⟩ := h.keeps hg
  obtain ⟨hphase, hframe⟩ := hg.stops t ht
  have hregs := hg.waits t ht
  have hopen : t.busOpen = s.busOpen := congrArg Regs.busOpen hregs
  have horder := h.order
  simp only [framesBeforeRelease, Bool.and_eq_true] at horder
  have hsends (hp : sendsFrame p = true) : t.busOpen = true := hopen.trans (h.sending (by simp [hp]))
  subst ht
  have hinit (hopc : reqOpc t.seq.word = 0x03#8) : InitLeft s (p :: ps) :=
    (h.init (hword ▸ hopc)).resolve_left (by simp)
  exact
    { mask := hmask, resp := hresp, traceShape := hshape
      idle := fun hidle => by cases hidle.symm.trans hbusy
      waits := fun _ hstart => (hstart ▸ hphase).ne_start
      flight := fun f hf => ⟨hframe f hf, hsends (hphase.sends (.inl ⟨f, hf⟩))⟩
      sending := fun hps => hps.elim (fun hp => hsends (hphase.sends (.inr hp)))
        fun hps => hopen.trans (h.sending (by simp_all))
      order := horder.2
      claiming := fun hc => by
        obtain ⟨hps, hclosed, hopc⟩ := h.claim (by simp [(hc ▸ hphase).eq_claimBus])
        exact ⟨hopen.trans hclosed, hword ▸ hopc, (List.cons.inj hps).2⟩
      noClaimLeft := h.claimBus_notMem
      sender := fun hph => hword ▸ maySend_of_mayRun (h.writers p (by simp)) (hphase.sends hph)
      writers := fun q hq => hword ▸ h.writers q (by simp [hq])
      initRest := fun _ hopc => by
        obtain ⟨ct, before, r, hbody, -⟩ := hinit hopc
        exact ⟨ct, before, p, hpar ▸ hbody, hphase.waitsIn_init (s := s) (ct := ct) (by simp [hbody])⟩
      initState := fun _ hopc => by
        obtain ⟨ct, before, r, hbody, hstate⟩ := hinit hopc
        have hwait := hphase.waitsIn_init (s := s) (ct := ct) (by simp [hbody])
        exact (congrArg Regs.initState hregs).trans (hstate.trans (initBody_initState r hbody hwait)) }

/-- However its primitive ends, a run stops or completes in a state with the invariant, if what is left of it does. -/
theorem Running.continueRun (hrest : ∀ t, Running t ps → Inv (run ps t)) : Inv (continueRun ps g) := by
  cases ht : g with
  | done t => exact hrest t (h.done hg ht)
  | blocked t => exact h.blocked hg ht

end

theorem Running.frames (h : Running s (p :: ps)) (b : Byte) (rs : Bool) : frameShape (encodeByte b rs s.blMask) = true :=
  frameShape_encodeByte h.mask b rs

/-- A primitive that waits leaves the registers: a claim that waits is unanswered, and the others write none. -/
theorem regs_of_blocked {g : Progress} {t : State} (hup : Updates (frameShape · = true) (· = p) s g.state)
    (ht : g = .blocked t) (hphase : BlockedPhase p t.seq.phase) (hclaim : p = .claimBus → regs t = regs s) :
    regs t = regs s := by
  by_cases hp : p = .claimBus
  · exact hclaim hp
  · subst ht
    exact Updates.regs_eq (P := (· = p)) (Ne.symm hp) (fun q hq r => hq ▸ hphase.writes r) hup

/-- A claim that waits changes only the phase. -/
theorem regs_of_claimBus_blocked {t : State} (h : claimBus s = .blocked t) : regs t = regs s := by
  cases hc : s.claims with
  | nil => rw [claimBus_nil hc] at h; cases h; rfl
  | cons ok rest => rw [claimBus_cons hc] at h; cases h

theorem Running.runPrim_goes (h : Running s (p :: ps)) : Goes p s (runPrim p s) := by
  obtain ⟨hup, hstop⟩ := runPrim_spec (F := (frameShape · = true)) (P := (· = p)) p rfl s fun _ => h.frames
  refine ⟨hup, hstop, fun t ht => ?_, fun t ht hp => runPrim_regs hp ht⟩
  refine regs_of_blocked hup ht (hstop t ht).1 ?_
  rintro rfl
  exact regs_of_claimBus_blocked ht

theorem Running.goOn_goes (h : Running s (p :: ps)) (hphase : BlockedPhase p s.seq.phase)
    (hflight : ∀ f, inFlight s.seq.phase = some f → frameShape f = true) : Goes p s (goOn s) := by
  obtain ⟨hup, hstop⟩ := goOn_spec (F := (frameShape · = true)) (P := (· = p)) hphase rfl hflight fun _ => h.frames
  refine ⟨hup, hstop, fun t ht => ?_, fun t ht hp => ?_⟩
  · refine regs_of_blocked hup ht (hstop t ht).1 ?_
    rintro rfl
    have hgo : goOn s = claimBus (setPhase .start s) := by simp only [goOn, show s.seq.phase = .claiming from hphase]
    rw [hgo] at ht
    exact (regs_of_claimBus_blocked ht).trans rfl
  · rw [ht] at hup
    rw [hphase.writes]
    exact Updates.regs_eq (P := (· = p)) (Ne.symm hp) (fun q hq r => hq ▸ hphase.writes r) hup

end

/-- A run of a request's primitives ends in a state with the invariant. -/
theorem Running.run {ps : List Prim} {s : State} (h : Running s ps) : Inv (run ps s) := by
  induction ps generalizing s with
  | nil => exact h.complete
  | cons p ps ih =>
    rw [run_cons]
    exact h.continueRun h.runPrim_goes fun t ht => ih ht

/-! ## Steps -/

/-- What is true of the plan `p` with which an idle block in the state `s` runs the word `w`, legal or not. -/
structure WordPlan (w : ReqWord) (s : State) (p : Plan) : Prop where
  word : p.word = w
  runs : ∀ q ∈ p.body, mayRun (reqOpc w) q = true
  order : framesBeforeRelease p.body = true
  claim : .claimBus ∈ p.body → p.body = [.claimBus] ∧ p.illegal = s.busOpen
  plan : (∃ i, decode w = .ok i ∧ PlanOf i s p) ∨ ((∃ e, decode w = .error e) ∧ p.illegal = true)

/-- A step: the block waits for a request, or accepts one and runs its primitives, or goes on with one. -/
theorem step_run_cases {s t : State} (h : step s = .next t) :
    (s.busy = false ∧ s.requests = [] ∧ t = s)
    ∨ (∃ w ws p u, s.busy = false ∧ s.requests = w :: ws ∧ WordPlan w { s with requests := ws } p
        ∧ Starts p (accept w { s with requests := ws }) u ∧ t = run (planPrims p s) u)
    ∨ (s.busy = true ∧ t = continueRun s.seq.todo (goOn s)) := by
  rcases step_cases h with hnone | ⟨w, ws, p, hidle, hoffered, hreq, hruns, horder, hclaim, hplan⟩ | ⟨hbusy, hres⟩
  · exact .inl hnone
  · have hword : p.word = w := by
      rcases hplan with ⟨i, hdecode, hp⟩ | ⟨-, hw, -⟩
      · exact hp.word.trans (encodeOfDecodeIsTheWord w i hdecode).2
      · exact hw
    rw [request_idle (s := { s with requests := ws }) hidle, hword] at hreq
    obtain ⟨u, hstart, he⟩ := checked_starts p (accept w { s with requests := ws })
    rw [he] at hreq
    cases hreq
    refine .inr (.inl ⟨w, ws, p, u, hidle, hoffered, ⟨hword, hword ▸ hruns, horder, hclaim, ?_⟩, hstart, rfl⟩)
    exact hplan.imp id fun ⟨he, _, hillegal⟩ => ⟨he, hillegal⟩
  · exact .inr (.inr ⟨hbusy, (resume_eq_goOn hres).2⟩)

/-- The converse of `BlockedPhase.sends`. -/
theorem BlockedPhase.awaits {p : Prim} {ph : Phase} (h : BlockedPhase p ph) (hp : sendsFrame p = true) :
    (∃ f, inFlight ph = some f) ∨ ph = .payloadSend := by
  cases p
  case sendCmd | sendData => exact .inl h
  case sendPayload => exact h.symm
  all_goals cases hp

theorem phasePrim_blocked {ph : Phase} (h : ph ≠ .start) : BlockedPhase (phasePrim ph) ph := by
  cases ph <;> simp_all [phasePrim, BlockedPhase, inFlight]

theorem BlockedPhase.ne_release {p : Prim} {ph : Phase} (h : BlockedPhase p ph) : p ≠ .releaseBus := by
  rintro rfl
  exact h

theorem waitsIn.blocked {p : Prim} {ph : Phase} (h : waitsIn p ph) : BlockedPhase p ph := by
  rcases h with ⟨⟨b, rfl⟩, hf⟩ | ⟨⟨d, rfl⟩, hk⟩
  · exact hf
  · exact hk

/-- A request in progress, waiting at the primitive `p`, has `p` and those left to run before it. -/
theorem Inv.running_of {s : State} {p : Prim} (hs : Inv s) (hbusy : s.busy = true) (hphase : BlockedPhase p s.seq.phase)
    (hinit : reqOpc s.seq.word = 0x03#8 → InitLeft s (p :: s.seq.todo)) : Running s (p :: s.seq.todo) where
  busy := hbusy
  mask := hs.mask
  resp := hs.resp
  traceShape := hs.traceShape
  sending := by
    rw [List.any_cons, Bool.or_eq_true]
    rintro (hp | htodo)
    · rcases hphase.awaits hp with ⟨f, hf⟩ | hpay
      · exact (hs.flight f hf).2
      · exact hs.sending (.inl hpay)
    · exact hs.sending (.inr htodo)
  order := by simp [framesBeforeRelease, hphase.ne_release, hs.order]
  claim := by
    rw [List.mem_cons]
    rintro (rfl | hmem)
    · obtain ⟨hclosed, hopc, htodo⟩ := hs.claiming hphase
      exact ⟨by rw [htodo], hclosed, hopc⟩
    · exact absurd hmem hs.noClaimLeft
  writers := by
    rw [List.forall_mem_cons]
    refine ⟨?_, hs.writers⟩
    cases p
    case sendCmd | sendData | sendPayload => exact hs.sender (hphase.awaits rfl)
    case claimBus => simp [mayRun, (hs.claiming hphase).2.1]
    case wait | dropPayload => rfl
    all_goals cases hphase
  init := fun hopc => .inr (hinit hopc)

/-- A request in progress has a primitive in progress, before those left to run. -/
theorem Inv.running {s : State} (hs : Inv s) (hbusy : s.busy = true) :
    ∃ p, BlockedPhase p s.seq.phase ∧ Running s (p :: s.seq.todo) := by
  by_cases hopc : reqOpc s.seq.word = 0x03#8
  case pos =>
    obtain ⟨ct, before, p, hbody, hwait⟩ := hs.initRest hbusy hopc
    refine ⟨p, hwait.blocked, hs.running_of hbusy hwait.blocked fun _ => ⟨ct, before, regs s, hbody, ?_⟩⟩
    exact (hs.initState hbusy hopc).trans (initBody_initState (regs s) hbody hwait).symm
  case neg =>
    have hphase := phasePrim_blocked (hs.waits hbusy)
    exact ⟨_, hphase, hs.running_of hbusy hphase fun h => absurd h hopc⟩

/-- The plan of a word runs its body only where its checks pass; else it only discards payload. -/
theorem planPrims_cases (p : Plan) (s : State) :
    (planPrims p s = p.body ∧ p.illegal = false ∧ p.range = none ∧ (wouldSend p = true → s.busOpen = true))
    ∨ planPrims p s = List.replicate (payloadLen p.word) .dropPayload := by
  by_cases h : p.illegal = false ∧ p.range = none ∧ (wouldSend p = true → s.busOpen = true)
  · exact .inl ⟨if_pos h, h⟩
  · exact .inr (if_neg h)

theorem init_of_opc {i : Instr} (h : reqOpc (encode i) = 0x03#8) : ∃ ct, i = .init ct := by
  cases i
  case init ct => exact ⟨ct, rfl⟩
  all_goals simp [encode] at h

/-- The checks leave a request with its primitives to run. -/
theorem Starts.running {w : ReqWord} {ws : List ReqWord} {p : Plan} {s u : State} (hs : Inv s)
    (hp : WordPlan w { s with requests := ws } p) (hstart : Starts p (accept w { s with requests := ws }) u) :
    Running u (planPrims p s) := by
  obtain ⟨⟨logs, htrace, hlogs⟩, r, hr⟩ := hstart.frame
  have hmem (q : Prim) (hq : q ∈ planPrims p s) : q = .dropPayload ∨ q ∈ p.body := by
    rcases planPrims_cases p s with ⟨he, -⟩ | he <;> rw [he] at hq
    · exact .inr hq
    · exact .inl (List.eq_of_mem_replicate hq)
  have hopen : u.busOpen = s.busOpen := by rw [hr]; rfl
  have hword : u.seq.word = w := by rw [hr]; rfl
  have hpar : u.par = s.par := by rw [hr]; rfl
  refine
    { busy := hstart.busy, mask := ?mask, resp := ?resp, traceShape := ?shape, sending := ?sending, order := ?order
      claim := ?claim, writers := ?writers, init := ?init }
  case mask => rw [hr]; exact hs.mask
  case resp => rw [hr]; exact hs.resp
  case shape =>
    intro a f st hf
    rw [htrace] at hf
    rcases List.mem_append.mp hf with hold | hnew
    · exact hs.traceShape a f st hold
    · cases hlogs _ hnew
  case sending =>
    rcases planPrims_cases p s with ⟨he, -, -, hbus⟩ | he <;> rw [he, hopen]
    · exact hbus
    · simp [sendsFrame]
  case order =>
    rcases planPrims_cases p s with ⟨he, -⟩ | he <;> rw [he]
    · exact hp.order
    · exact framesBeforeRelease_of_none fun q hq => by simp [List.eq_of_mem_replicate hq]
  case claim =>
    rcases planPrims_cases p s with ⟨he, hlegal, -⟩ | he <;> rw [he]
    · intro hq
      obtain ⟨hbody, hillegal⟩ := hp.claim hq
      have hopc := hp.runs _ hq
      rw [hopen, hword]
      exact ⟨hbody, hillegal.symm.trans hlegal, by simpa [mayRun] using hopc⟩
    · simp
  case writers =>
    intro q hq
    rw [hword]
    rcases hmem q hq with rfl | hq
    · rfl
    · exact hp.runs q hq
  case init =>
    intro hopc
    rw [hword] at hopc
    rcases planPrims_cases p s with ⟨he, hlegal, -⟩ | he <;> rw [he]
    · rcases hp.plan with ⟨i, -, hi⟩ | ⟨-, hillegal⟩
      · obtain ⟨ct, rfl⟩ := init_of_opc (hi.word ▸ hp.word.symm ▸ hopc)
        exact .inr ⟨enum2 ct, [], regs u, by rw [hpar, hi.initRuns ct rfl]; rfl, rfl⟩
      · cases hlegal.symm.trans hillegal
    · rw [hp.word, payloadLen_other (by simp [hopc]) (by simp [hopc])]
      exact .inl rfl

/-- Settles O50. -/
theorem stepKeepsTheInvariant : Obligations.StepKeepsTheInvariant := by
  intro s t hs h
  rcases step_run_cases h with ⟨-, -, rfl⟩ | ⟨w, ws, p, u, -, -, hp, hstart, rfl⟩ | ⟨hbusy, rfl⟩
  · exact hs
  · exact (hstart.running hs hp).run
  · obtain ⟨p, hphase, hrun⟩ := hs.running hbusy
    exact hrun.continueRun (hrun.goOn_goes hphase fun f hf => (hs.flight f hf).1) fun _ ht => ht.run

end Sys2Proof.Machine
end

section
/-! PROOFS. Which request may write which register, and where attempts go: a step from a state with the invariant, in the terms
of Laws/Step.lean (10_state.md R22 to R28; 40_transport.md R104; 60_exceptions.md R200 to R208). -/

namespace Sys2Proof.Machine

/-! ## A step from a state with the invariant -/

/-- The primitive is one that a step from `s` may run. -/
structure MayRunNow (s : State) (q : Prim) : Prop where
  runs : ∃ opc, runningOpc s = some opc ∧ mayRun opc q = true
  sends : sendsFrame q = true → s.busOpen = true
  claims : q = .claimBus → s.busOpen = false

/-- A step from `s` may send a frame. -/
def MaySendNow (s : State) (_ : Frame) : Prop :=
  s.busOpen = true ∧ ∃ opc, runningOpc s = some opc ∧ maySend opc = true

theorem framesOk_now (s : State) (m : Byte) : FramesOk (MaySendNow s) (MayRunNow s) m := by
  intro q hq hsends b rs
  obtain ⟨opc, hopc, hruns⟩ := hq.runs
  exact ⟨hq.sends hsends, opc, hopc, maySend_of_mayRun hruns hsends⟩

/-- The primitives of a running request, where the bus is as it was before the step. -/
theorem Running.mayRunNow {s u : State} {ps : List Prim} (h : Running u ps) (hopen : u.busOpen = s.busOpen)
    (hopc : runningOpc s = some (reqOpc u.seq.word)) : ∀ q ∈ ps, MayRunNow s q := fun q hq =>
  { runs := ⟨_, hopc, h.writers q hq⟩
    sends := fun hs => hopen.symm.trans (h.sending (List.any_eq_true.mpr ⟨q, hq, hs⟩))
    claims := by
      rintro rfl
      exact hopen.symm.trans (h.claim hq).2.1 }

/-- A step accepts a request or goes on with one, and then runs only what its request may run. -/
theorem Inv.step_advances {s t : State} (hs : Inv s) (h : step s = .next t) :
    t = s
    ∨ (∃ w ws p u ps, s.busy = false ∧ s.requests = w :: ws ∧ WordPlan w { s with requests := ws } p
        ∧ Starts p (accept w { s with requests := ws }) u ∧ Advances (MaySendNow s) (MayRunNow s) ps u t)
    ∨ ∃ ps, Advances (MaySendNow s) (MayRunNow s) ps s t := by
  rcases step_run_cases h with ⟨-, -, rfl⟩ | ⟨w, ws, p, u, hidle, hoffered, hp, hstart, rfl⟩ | ⟨hbusy, rfl⟩
  · exact .inl rfl
  · obtain ⟨-, r, hr⟩ := hstart.frame
    have hopen : u.busOpen = s.busOpen := by rw [hr]; rfl
    have hword : u.seq.word = w := by rw [hr]; rfl
    have hopc : runningOpc s = some (reqOpc u.seq.word) := by simp [runningOpc, hidle, hoffered, hword]
    have hmay := (hstart.running hs hp).mayRunNow hopen hopc
    exact .inr (.inl ⟨w, ws, p, u, _, hidle, hoffered, hp, hstart, run_advances (fun _ => framesOk_now s _) hmay (framesOk_now s _)⟩)
  · obtain ⟨p, hphase, hrun⟩ := hs.running hbusy
    have hopc : runningOpc s = some (reqOpc s.seq.word) := by simp [runningOpc, hbusy]
    obtain ⟨hp, htodo⟩ := List.forall_mem_cons.mp (hrun.mayRunNow rfl hopc)
    have hflight (f : Frame) (hf : inFlight s.seq.phase = some f) : MaySendNow s f :=
      ⟨(hs.flight f hf).2, _, hopc, hs.sender (.inl ⟨f, hf⟩)⟩
    obtain ⟨hup, hstop⟩ := goOn_spec hphase hp hflight (framesOk_now s _ p hp)
    exact .inr (.inr ⟨_, continueRun_advances (fun _ => framesOk_now s _) htodo (framesOk_now s _) hup hstop⟩)

/-! ## Attempts -/

/-- The event, if it is an attempt, goes to `addr`, and `C` holds. -/
def AttemptsTo (addr : Addr7) (C : Prop) (e : Event) : Prop := ∀ a f st, e = .frame a f st → a = addr ∧ C

theorem Advances.attemptsTo {F : Frame → Prop} {P : Prim → Prop} {C : Prop} (hF : ∀ f, F f → C) {ps : List Prim} {s t : State}
    (h : Advances F P ps s t) : Emits (AttemptsTo s.cfg.addr C) s t := by
  have hrun {u : State} (hu : Updates F P s u) : Emits (AttemptsTo s.cfg.addr C) s u :=
    hu.emits.mono fun e he a f st hf => (he.frame a f st hf).imp id (hF f)
  rcases h with ⟨u, hu, rfl⟩ | ⟨u, p, before, after, -, hu, -, -, rfl⟩
  · exact (hrun hu).trans ((complete_emits u).mono fun e he a f st hf => by rw [he] at hf; cases hf)
  · exact hrun (hu.tail (.seq u { u.seq with todo := after } rfl))

/-- Settles O56: an attempt is of a frame that the step may send, and every such frame needs an open bus. -/
theorem attemptsOnlyOnAnOpenBusToCfgAddr : Obligations.AttemptsOnlyOnAnOpenBusToCfgAddr := by
  intro s t hs h
  obtain ⟨evs, htrace, hevs⟩ : Emits (AttemptsTo s.cfg.addr (s.busOpen = true)) s t := by
    rcases hs.step_advances h with rfl | ⟨w, ws, p, u, ps, -, -, -, hstart, hrun⟩ | ⟨ps, hrun⟩
    · exact Emits.refl t
    · have hlogs : Emits (AttemptsTo s.cfg.addr (s.busOpen = true)) s u :=
        hstart.emits.mono fun e he a f st hf => by rw [hf] at he; cases he.1
      have hcfg : u.cfg = s.cfg := hstart.cfg_par.1
      exact hlogs.trans (hcfg ▸ hrun.attemptsTo fun f hf => hf.1)
    · exact hrun.attemptsTo fun f hf => hf.1
  exact ⟨evs, htrace, fun a f st hmem => hevs _ hmem a f st rfl⟩

/-! ## Writes -/

/-- What a run of primitives that `P` allows, with frames that `F` allows, may have written from `s` to `t`. -/
structure Wrote (F : Frame → Prop) (P : Prim → Prop) (s t : State) : Prop where
  cfg : t.cfg = s.cfg
  blMask : t.blMask ≠ s.blMask → ∃ on, P (.setBacklight on)
  busOpen : t.busOpen ≠ s.busOpen → P .claimBus ∨ P .releaseBus
  initState : t.initState ≠ s.initState → ∃ st, P (.setInitState st)
  cursorType : t.cursorType ≠ s.cursorType ∨ t.ctValid ≠ s.ctValid → ∃ ct, P (.setCursorType ct)
  entryMode : t.entryMode ≠ s.entryMode ∨ t.emValid ≠ s.emValid → ∃ m, P (.setEntryMode m)
  unavailable : t.fBusUnavailable ≠ s.fBusUnavailable → P .claimBus
  dropped : t.fFrameDropped ≠ s.fFrameDropped → s.cfg.retryLimit ≠ 0#16 ∧ ∃ f, F f
  illegalRequest : t.fIllegalRequest = s.fIllegalRequest
  busNotOpen : t.fBusNotOpen = s.fBusNotOpen
  notReadyUse : t.fNotReadyUse = s.fNotReadyUse
  invalidGeometry : t.wInvalidGeometry = s.wInvalidGeometry
  invalidSlot : t.wInvalidSlot = s.wInvalidSlot

/-- Where the ends differ, one of the two halves differs. -/
theorem ne_or_ne {α : Type} {a b c : α} (h : c ≠ a) : c ≠ b ∨ b ≠ a := by
  by_contra hc
  obtain ⟨h1, h2⟩ := not_or.mp hc
  exact h ((not_not.mp h1).trans (not_not.mp h2))

section
variable {F : Frame → Prop} {P : Prim → Prop} {s t u : State}

theorem Wrote.refl (s : State) : Wrote F P s s := by
  constructor <;> simp

theorem Wrote.trans (h : Wrote F P s t) (h' : Wrote F P t u) : Wrote F P s u where
  cfg := h'.cfg.trans h.cfg
  blMask := fun hne => (ne_or_ne hne).elim h'.blMask h.blMask
  busOpen := fun hne => (ne_or_ne hne).elim h'.busOpen h.busOpen
  initState := fun hne => (ne_or_ne hne).elim h'.initState h.initState
  cursorType := fun hne => hne.elim
    (fun hne => (ne_or_ne hne).elim (fun hc => h'.cursorType (.inl hc)) fun hc => h.cursorType (.inl hc))
    (fun hne => (ne_or_ne hne).elim (fun hc => h'.cursorType (.inr hc)) fun hc => h.cursorType (.inr hc))
  entryMode := fun hne => hne.elim
    (fun hne => (ne_or_ne hne).elim (fun hc => h'.entryMode (.inl hc)) fun hc => h.entryMode (.inl hc))
    (fun hne => (ne_or_ne hne).elim (fun hc => h'.entryMode (.inr hc)) fun hc => h.entryMode (.inr hc))
  unavailable := fun hne => (ne_or_ne hne).elim h'.unavailable h.unavailable
  dropped := fun hne => (ne_or_ne hne).elim (fun hd => h.cfg ▸ h'.dropped hd) h.dropped
  illegalRequest := h'.illegalRequest.trans h.illegalRequest
  busNotOpen := h'.busNotOpen.trans h.busNotOpen
  notReadyUse := h'.notReadyUse.trans h.notReadyUse
  invalidGeometry := h'.invalidGeometry.trans h.invalidGeometry
  invalidSlot := h'.invalidSlot.trans h.invalidSlot

theorem Update.wrote (h : Update F P s t) : Wrote F P s t := by
  have hrefl : Wrote F P s s := Wrote.refl s
  cases h
  case drop f hf hl => exact { hrefl with dropped := fun _ => ⟨hl, f, hf⟩ }
  case opened hp => exact { hrefl with busOpen := fun _ => .inl hp }
  case unavailable hp => exact { hrefl with unavailable := fun _ => hp }
  case initState st hp => exact { hrefl with initState := fun _ => ⟨st, hp⟩ }
  case cursorType ct hp => exact { hrefl with cursorType := fun _ => ⟨ct, hp⟩ }
  case entryMode m hp => exact { hrefl with entryMode := fun _ => ⟨m, hp⟩ }
  case backlight on hp => exact { hrefl with blMask := fun _ => ⟨on, hp⟩ }
  case release hp => exact { hrefl with busOpen := fun _ => .inr hp }
  all_goals constructor <;> simp

theorem complete_wrote (s : State) : Wrote F P s (complete s) := by
  constructor <;> simp

theorem Advances.wrote {ps : List Prim} (h : Advances F P ps s t) : Wrote F P s t :=
  h.rel Wrote.refl (fun _ _ _ => Wrote.trans) (fun _ _ h => h.wrote) complete_wrote

end

/-! ## The flags that the checks set -/

/-- The request passes the checks 1 and 2, and would send a frame. -/
def Sends (p : Plan) : Prop := p.illegal = false ∧ p.range = none ∧ wouldSend p = true

/-- What the checks of a plan may have set, and what they left (60_exceptions.md R205 to R207). -/
structure Checked (p : Plan) (s u : State) : Prop where
  illegalRequest : u.fIllegalRequest ≠ s.fIllegalRequest → p.illegal = true
  busNotOpen : u.fBusNotOpen ≠ s.fBusNotOpen → Sends p ∧ s.busOpen = false
  notReadyUse : u.fNotReadyUse ≠ s.fNotReadyUse → Sends p ∧ s.busOpen = true ∧ p.isInit = false ∧ s.initState ≠ .ready
  invalidGeometry : u.wInvalidGeometry ≠ s.wInvalidGeometry → p.illegal = false ∧ ∃ info, p.range = some (.invalidGeometry, info)
  invalidSlot : u.wInvalidSlot ≠ s.wInvalidSlot → p.illegal = false ∧ ∃ info, p.range = some (.invalidSlot, info)
  unavailable : u.fBusUnavailable = s.fBusUnavailable

theorem Starts.checked {p : Plan} {s u : State} (h : Starts p s u)
    (hrange : ∀ e info, p.illegal = false → p.range = some (e, info) → e = .invalidSlot ∨ e = .invalidGeometry) :
    Checked p s u := by
  cases h with
  | illegal hi => constructor <;> simp [hi]
  | range e info hi hr => rcases hrange e info hi hr with rfl | rfl <;> constructor <;> simp [hi, hr]
  | closed hi hr hw hb => constructor <;> simp [Sends, hi, hr, hw, hb]
  | passes hi hr hb =>
    cases hc : wouldSend p && !p.isInit with
    | false => constructor <;> simp
    | true =>
      simp only [Bool.and_eq_true, Bool.not_eq_true'] at hc
      refine ⟨by simp, by simp, fun hne => ⟨⟨hi, hr, hc.1⟩, hb hc.1, hc.2, fun hready => hne ?_⟩, by simp, by simp, by simp⟩
      simp [hready]

section
variable {w : ReqWord} {s : State} {p : Plan} (hp : WordPlan w s p)
include hp

/-- A plan that is not illegal is a request's. -/
theorem WordPlan.planOf (hlegal : p.illegal = false) : ∃ i, decode w = .ok i ∧ PlanOf i s p :=
  hp.plan.resolve_right fun h => by cases hlegal.symm.trans h.2

theorem WordPlan.illegalWord (hillegal : p.illegal = true) : IllegalWord w ∨ w = encode .openBus ∧ s.busOpen = true := by
  rcases hp.plan with ⟨i, hdecode, hi⟩ | ⟨herror, -⟩
  · obtain ⟨hwf, hword⟩ := encodeOfDecodeIsTheWord w i hdecode
    rcases hi.illegal.mp hillegal with hbad | ⟨rfl, hopen⟩
    · cases hbad.symm.trans hwf
    · exact .inr ⟨hword.symm, hopen⟩
  · exact .inl ((decodeRefusesExactlyIllegalWords w).mp herror)

theorem WordPlan.rangeErrors (e : ErrorKind) (info : Half) (hlegal : p.illegal = false) (hr : p.range = some (e, info)) :
    e = .invalidSlot ∨ e = .invalidGeometry := by
  obtain ⟨i, -, hi⟩ := hp.planOf hlegal
  exact (hi.rangeError e info hr).imp And.left And.left

/-- A request that passes check 2 and would send a frame. -/
theorem WordPlan.sends (h : Sends p) : ∃ i, decode w = .ok i ∧ PlanOf i s p ∧ PassesRange i s.cfg ∧ wouldSendFrame i = true := by
  obtain ⟨hlegal, hrange, hsends⟩ := h
  obtain ⟨i, hdecode, hi⟩ := hp.planOf hlegal
  have hpass := hi.range.mp hrange
  exact ⟨i, hdecode, hi, hpass, (hi.sends hpass).symm.trans hsends⟩

/-- A request that check 2 ends with `e`, and its OPC. -/
theorem WordPlan.outOfRange {e : ErrorKind} {info : Half} (hlegal : p.illegal = false) (hr : p.range = some (e, info)) :
    ∃ i, decode w = .ok i ∧ ¬ PassesRange i s.cfg
      ∧ ((e = .invalidSlot ∧ reqOpc w ∈ [0x0E#8, 0x0F#8]) ∨ (e = .invalidGeometry ∧ reqOpc w ∈ [0x05#8, 0x08#8, 0x12#8])) := by
  obtain ⟨i, hdecode, hi⟩ := hp.planOf hlegal
  refine ⟨i, hdecode, fun hpass => ?_, hp.word ▸ hi.rangeError e info hr⟩
  cases hr.symm.trans (hi.range.mpr hpass)

end

/-- What accepting a request may have set in `t`: the clauses of 60_exceptions.md R205 to R208. -/
structure SetAtAcceptance (s t : State) : Prop where
  illegalRequest : t.fIllegalRequest ≠ s.fIllegalRequest →
    ∃ w, acceptedWord s = some w ∧ (IllegalWord w ∨ w = encode .openBus ∧ s.busOpen = true)
  busNotOpen : t.fBusNotOpen ≠ s.fBusNotOpen → s.busOpen = false ∧ ∃ w i, acceptedWord s = some w ∧ decode w = .ok i
    ∧ PassesRange i s.cfg ∧ wouldSendFrame i = true
  notReadyUse : t.fNotReadyUse ≠ s.fNotReadyUse → s.busOpen = true ∧ s.initState ≠ .ready
    ∧ ∃ w i, acceptedWord s = some w ∧ decode w = .ok i ∧ PassesRange i s.cfg ∧ wouldSendFrame i = true ∧ ∀ ct, i ≠ .init ct
  invalidGeometry : t.wInvalidGeometry ≠ s.wInvalidGeometry → ∃ w i, acceptedWord s = some w ∧ decode w = .ok i
    ∧ ¬ PassesRange i s.cfg ∧ reqOpc w ∈ [0x05#8, 0x08#8, 0x12#8]
  invalidSlot : t.wInvalidSlot ≠ s.wInvalidSlot → ∃ w i, acceptedWord s = some w ∧ decode w = .ok i
    ∧ ¬ PassesRange i s.cfg ∧ reqOpc w ∈ [0x0E#8, 0x0F#8]

theorem setAtAcceptance_refl (s : State) : SetAtAcceptance s s := by
  constructor <;> exact fun hne => absurd rfl hne

theorem Starts.setAtAcceptance {w : ReqWord} {ws : List ReqWord} {p : Plan} {s u : State} (hidle : s.busy = false)
    (hoffered : s.requests = w :: ws) (hp : WordPlan w { s with requests := ws } p)
    (hstart : Starts p (accept w { s with requests := ws }) u) : SetAtAcceptance s u := by
  have hword : acceptedWord s = some w := by simp [acceptedWord, hidle, hoffered]
  have hchecked := hstart.checked hp.rangeErrors
  refine ⟨fun hne => ?illegal, fun hne => ?closed, fun hne => ?notReady, fun hne => ?geometry, fun hne => ?slot⟩
  case illegal => exact ⟨w, hword, hp.illegalWord (hchecked.illegalRequest hne)⟩
  case closed =>
    obtain ⟨hsends, hclosed⟩ := hchecked.busNotOpen hne
    obtain ⟨i, hdecode, -, hpass, hw⟩ := hp.sends hsends
    exact ⟨hclosed, w, i, hword, hdecode, hpass, hw⟩
  case notReady =>
    obtain ⟨hsends, hopen, hinit, hready⟩ := hchecked.notReadyUse hne
    obtain ⟨i, hdecode, hi, hpass, hw⟩ := hp.sends hsends
    refine ⟨hopen, hready, w, i, hword, hdecode, hpass, hw, fun ct hct => ?_⟩
    cases hinit.symm.trans (hi.init.mpr ⟨ct, hct⟩)
  case geometry =>
    obtain ⟨hlegal, info, hr⟩ := hchecked.invalidGeometry hne
    obtain ⟨i, hdecode, hpass, ⟨he, -⟩ | ⟨-, hopc⟩⟩ := hp.outOfRange hlegal hr
    · cases he
    · exact ⟨w, i, hword, hdecode, hpass, hopc⟩
  case slot =>
    obtain ⟨hlegal, info, hr⟩ := hchecked.invalidSlot hne
    obtain ⟨i, hdecode, hpass, ⟨-, hopc⟩ | ⟨he, -⟩⟩ := hp.outOfRange hlegal hr
    · exact ⟨w, i, hword, hdecode, hpass, hopc⟩
    · cases he

/-- A step writes in two parts: first the flags of acceptance, then what its primitives may write. -/
theorem Inv.step_wrote {s t : State} (hs : Inv s) (h : step s = .next t) : ∃ a, SetAtAcceptance s a
    ∧ Wrote (MaySendNow s) (MayRunNow s) { s with
        fIllegalRequest := a.fIllegalRequest, fBusNotOpen := a.fBusNotOpen, fNotReadyUse := a.fNotReadyUse
        wInvalidGeometry := a.wInvalidGeometry, wInvalidSlot := a.wInvalidSlot } t := by
  rcases hs.step_advances h with rfl | ⟨w, ws, p, u, ps, hidle, hoffered, hp, hstart, hrun⟩ | ⟨ps, hrun⟩
  · exact ⟨t, setAtAcceptance_refl t, Wrote.refl t⟩
  · refine ⟨u, hstart.setAtAcceptance hidle hoffered hp, ?_⟩
    have hunavailable := (hstart.checked hp.rangeErrors).unavailable
    obtain ⟨-, r, hr⟩ := hstart.frame
    have hwrote := hrun.wrote
    rw [hr, hunavailable] at hwrote
    exact ⟨hwrote.cfg, hwrote.blMask, hwrote.busOpen, hwrote.initState, hwrote.cursorType, hwrote.entryMode,
      hwrote.unavailable, hwrote.dropped, hwrote.illegalRequest, hwrote.busNotOpen, hwrote.notReadyUse,
      hwrote.invalidGeometry, hwrote.invalidSlot⟩
  · exact ⟨s, setAtAcceptance_refl s, hrun.wrote⟩

/-- The running request's OPC, from a primitive that only some requests may run. -/
theorem MayRunNow.opc {s : State} {q : Prim} (hq : MayRunNow s q) {C : Option Byte → Prop}
    (hC : ∀ opc, mayRun opc q = true → C (some opc)) : C (runningOpc s) := by
  obtain ⟨opc, hopc, hruns⟩ := hq.runs
  exact hopc ▸ hC opc hruns

/-- Settles O52: the registers are written in the run (`Wrote`), by primitives of the running request, and five of the flags
by the checks (`SetAtAcceptance`), as the request is accepted. -/
theorem registersAreWrittenOnlyByTheirRequests : Obligations.RegistersAreWrittenOnlyByTheirRequests := by
  intro s t hs h
  obtain ⟨a, haccept, hwrote⟩ := hs.step_wrote h
  refine ⟨fun hne => ?mask, fun hne => ?bus, fun hne => ?init, fun hne => ?cursor, fun hne => ?entry,
    fun hne => haccept.illegalRequest (hwrote.illegalRequest ▸ hne), fun hne => haccept.busNotOpen (hwrote.busNotOpen ▸ hne),
    fun hne => haccept.notReadyUse (hwrote.notReadyUse ▸ hne), fun hne => ?unavailable, fun hne => ?dropped,
    fun hne => haccept.invalidGeometry (hwrote.invalidGeometry ▸ hne), fun hne => haccept.invalidSlot (hwrote.invalidSlot ▸ hne)⟩
  case mask =>
    obtain ⟨on, hq⟩ := hwrote.blMask hne
    exact hq.opc (C := (· = some 0x10#8)) fun opc hopc => by simpa [mayRun] using hopc
  case bus =>
    rcases hwrote.busOpen hne with hq | hq
    · exact hq.opc (C := (· ∈ _)) fun opc hopc => by simp_all [mayRun]
    · exact hq.opc (C := (· ∈ _)) fun opc hopc => by simp_all [mayRun]
  case init =>
    obtain ⟨st, hq⟩ := hwrote.initState hne
    exact hq.opc (C := (· ∈ _)) fun opc hopc => by simpa [mayRun] using hopc
  case cursor =>
    obtain ⟨ct, hq⟩ := hwrote.cursorType hne
    exact hq.opc (C := (· ∈ _)) fun opc hopc => by simpa [mayRun] using hopc
  case entry =>
    obtain ⟨m, hq⟩ := hwrote.entryMode hne
    exact hq.opc (C := (· ∈ _)) fun opc hopc => by simpa [mayRun, or_assoc] using hopc
  case unavailable =>
    have hq := hwrote.unavailable hne
    exact ⟨hq.claims rfl, hq.opc (C := (· = some 0x01#8)) fun opc hopc => by simpa [mayRun] using hopc⟩
  case dropped =>
    obtain ⟨hlimit, f, hopen, hsend⟩ := hwrote.dropped hne
    exact ⟨hopen, hlimit, hsend⟩

end Sys2Proof.Machine
end

section
/-! PROOFS. How SendFrame ends (40_transport.md R105, R106, R108): what it leaves when it completes, and how many attempts it
makes. -/

namespace Sys2Proof.Machine

/-! ## The loop of SendFrame, attempt by attempt -/

/-- A failed attempt that is to be retried, counted and logged (40_transport.md R105). -/
def failedOnce (f : Frame) (st : Byte) (n : Half) (rest : List Byte) (s : State) : State :=
  logEvent .retry (st ++ capByte (satInc16 n)) (countFailure (answered f st rest s))

/-- A failed attempt as one record update. -/
theorem failedOnce_eq (f : Frame) (st : Byte) (n : Half) (rest : List Byte) (s : State) : failedOnce f st n rest s = { s with
    trace := s.trace ++ .frame s.cfg.addr f st :: logEvents s.cfg.debug .retry (st ++ capByte (satInc16 n))
    statuses := rest, errcnt := satInc32 s.errcnt } := by
  simp [failedOnce, logEvent_eq, countFailure, answered, emit, logEvents]

/-- A Wait that completes leaves its DELAY and takes its pulses. -/
theorem doWait_eq_done {d : Half} {ph : Nat → Phase} {s t : State} (h : doWait d ph s = .done t) :
    waitTicks d ≤ s.ticks ∧ t = { s with trace := s.trace ++ waitEvents d, ticks := s.ticks - waitTicks d } := by
  have hle : waitTicks d ≤ s.ticks := by
    unfold doWait countTicks at h
    unfold waitTicks
    split_ifs at h ⊢ with hd hle
    · exact Nat.zero_le _
    · exact hle
  rw [doWait_done ph hle] at h
  cases h
  exact ⟨hle, rfl⟩

theorem doWait_blocked_eq {d : Half} {ph : Nat → Phase} {s t : State} (h : doWait d ph s = .blocked t) :
    ∃ k, t = { s with trace := s.trace ++ waitEvents d, ticks := 0, seq := { s.seq with phase := ph k } } := by
  unfold doWait countTicks at h
  split_ifs at h with hd hle
  cases h
  exact ⟨d.toNat + 1 - s.ticks, by simp [setPhase, emit, waitEvents, hd]⟩

/-- SendFrame's loop after a failed attempt that is to be retried: the delay, then the loop on the answers left. -/
theorem attempts_again {f : Frame} {st : Byte} {rest : List Byte} {n : Half} {s : State} (h0 : st ≠ 0#8)
    (hlimit : ¬ (s.cfg.retryLimit ≠ 0#16 ∧ n = s.cfg.retryLimit)) : attempts f (st :: rest) n s = retryAgain f (satInc16 n)
      (doWait s.cfg.retryDelayMs (.retryWait f (satInc16 n)) (failedOnce f st n rest s)) := by
  rw [attempts, if_neg h0, if_neg hlimit, ← failedOnce]
  cases hw : doWait s.cfg.retryDelayMs (.retryWait f (satInc16 n)) (failedOnce f st n rest s) with
  | blocked t => rfl
  | done t => rw [retryAgain, (doWait_eq_done hw).2, failedOnce_eq]

/-! ## What a completed SendFrame leaves -/

/-- SendFrame has completed from `s` in `t` with the events `evs`; `d` says whether the frame was dropped. -/
structure FrameSent (s t : State) (evs : List Event) (d : Bool) : Prop where
  state : t = { s with trace := s.trace ++ evs, statuses := t.statuses, ticks := t.ticks, errcnt := t.errcnt
                       fFrameDropped := s.fFrameDropped || d, seq := { s.seq with dropped := s.seq.dropped || d } }
  attempted : 1 ≤ evs.countP isAttempt
  ended : s.cfg.debug = true → evs.countP endsFrame = 1

theorem attempts_done (f : Frame) (sts : List Byte) {n : Half} {s t : State} (h : attempts f sts n s = .done t) :
    ∃ evs d, FrameSent s t evs d := by
  induction sts generalizing n s with
  | nil => cases h
  | cons st rest ih =>
    by_cases h0 : st = 0#8
    · subst h0
      rw [attempts_success] at h
      cases h
      exact ⟨[.frame s.cfg.addr f 0#8], false, by simp [answered, emit], by simp [isAttempt], by simp [endsFrame]⟩
    by_cases hlimit : s.cfg.retryLimit ≠ 0#16 ∧ n = s.cfg.retryLimit
    · rw [attempts_drop h0 hlimit.1 hlimit.2] at h
      cases h
      refine ⟨.frame s.cfg.addr f st :: logEvents s.cfg.debug .frameDropped (st.setWidth 16), true, ?_,
        by simp [isAttempt, List.countP_cons], ?_⟩
      · simp [dropFrame, logEvent_eq, countFailure, answered, emit, logEvents]
      · intro hd
        simp [logEvents, hd, endsFrame, h0]
    · rw [attempts_again h0 hlimit] at h
      cases hw : doWait s.cfg.retryDelayMs (.retryWait f (satInc16 n)) (failedOnce f st n rest s) with
      | blocked y => rw [hw] at h; cases h
      | done y =>
        rw [hw, retryAgain] at h
        have hy := (doWait_eq_done hw).2
        rw [failedOnce_eq] at hy
        have hsts : y.statuses = rest := by rw [hy]
        obtain ⟨evs, d, hstate, hattempt, hend⟩ := ih (hsts ▸ h)
        refine ⟨.frame s.cfg.addr f st :: logEvents s.cfg.debug .retry (st ++ capByte (satInc16 n))
          ++ waitEvents s.cfg.retryDelayMs ++ evs, d, ?_, ?_, ?_⟩
        · rw [hstate, hy]
          simp
        · simp only [List.countP_append]
          omega
        · intro hd
          have := hend (by rw [hy]; exact hd)
          simp only [List.countP_append, this]
          simp [logEvents, hd, endsFrame, h0, waitEvents]

/-! ## The number of attempts -/

/-- The events of SendFrame's loop on the frame `f`: no more than `k` attempts, all of `f` to `addr`. -/
structure AttemptsOf (addr : Addr7) (f : Frame) (k : Nat) (evs : List Event) : Prop where
  count : evs.countP isAttempt ≤ k
  same : ∀ e ∈ evs, isAttempt e = true → ∃ st, e = .frame addr f st

theorem satInc16_toNat {n limit : Half} (h : n.toNat < limit.toNat) : (satInc16 n).toNat = n.toNat + 1 := by
  unfold satInc16
  split_ifs with hmax
  · rw [hmax] at h
    exact absurd h (Nat.not_lt.mpr (Nat.le_of_lt_succ limit.isLt))
  · rw [BitVec.toNat_add]
    have := limit.isLt
    simp
    omega

theorem AttemptsOf.append {addr : Addr7} {f : Frame} {j k : Nat} {xs ys : List Event} (hx : AttemptsOf addr f j xs)
    (hy : AttemptsOf addr f k ys) : AttemptsOf addr f (j + k) (xs ++ ys) where
  count := by rw [List.countP_append]; exact Nat.add_le_add hx.count hy.count
  same := fun e he => (List.mem_append.mp he).elim (hx.same e) (hy.same e)

theorem AttemptsOf.mono {addr : Addr7} {f : Frame} {j k : Nat} {xs : List Event} (h : AttemptsOf addr f j xs) (hjk : j ≤ k) :
    AttemptsOf addr f k xs := ⟨h.count.trans hjk, h.same⟩

/-- Events of which none is an attempt. -/
theorem attemptsOf_none {addr : Addr7} {f : Frame} {xs : List Event} (h : ∀ e ∈ xs, isAttempt e = false) :
    AttemptsOf addr f 0 xs where
  count := by rw [List.countP_eq_zero.mpr (by simpa using h)]
  same := fun e he ha => by cases (h e he).symm.trans ha

theorem attemptsOf_one (addr : Addr7) (f : Frame) (st : Byte) : AttemptsOf addr f 1 [.frame addr f st] where
  count := by simp [isAttempt]
  same := fun e he _ => ⟨st, by simpa using he⟩

theorem attemptsOf_log (addr : Addr7) (f : Frame) (debug : Bool) (k : LogKind) (info : Half) :
    AttemptsOf addr f 0 (logEvents debug k info) :=
  attemptsOf_none (by cases debug <;> simp [logEvents, isAttempt])

theorem attemptsOf_wait (addr : Addr7) (f : Frame) (d : Half) : AttemptsOf addr f 0 (waitEvents d) :=
  attemptsOf_none (by unfold waitEvents; split <;> simp [isAttempt])

/-- The loop, with `n` retries made, makes at most those attempts that the limit leaves. -/
theorem attempts_bounded (f : Frame) (sts : List Byte) {n : Half} {s : State} (hbounded : s.cfg.retryLimit ≠ 0#16)
    (hn : n.toNat ≤ s.cfg.retryLimit.toNat) : ∃ evs, (attempts f sts n s).state.trace = s.trace ++ evs
      ∧ AttemptsOf s.cfg.addr f (1 + s.cfg.retryLimit.toNat - n.toNat) evs := by
  induction sts generalizing n s with
  | nil => exact ⟨[], by simp [attempts, Progress.state], attemptsOf_none (by simp) |>.mono (Nat.zero_le _)⟩
  | cons st rest ih =>
    have hfirst := attemptsOf_one s.cfg.addr f st
    by_cases h0 : st = 0#8
    · subst h0
      exact ⟨_, by rw [attempts_success]; rfl, hfirst.mono (by omega)⟩
    by_cases hlimit : s.cfg.retryLimit ≠ 0#16 ∧ n = s.cfg.retryLimit
    · rw [attempts_drop h0 hlimit.1 hlimit.2]
      refine ⟨[.frame s.cfg.addr f st] ++ logEvents s.cfg.debug .frameDropped (st.setWidth 16), ?_,
        (hfirst.append (attemptsOf_log _ _ _ _ _)).mono (by omega)⟩
      simp [Progress.state, dropFrame, logEvent_eq, logEvents]
    · have hlt : n.toNat < s.cfg.retryLimit.toNat := by
        refine Nat.lt_of_le_of_ne hn fun he => hlimit ⟨hbounded, BitVec.eq_of_toNat_eq he⟩
      have hnext := satInc16_toNat hlt
      have hbefore := (hfirst.append (attemptsOf_log s.cfg.addr f s.cfg.debug .retry (st ++ capByte (satInc16 n)))).append
        (attemptsOf_wait s.cfg.addr f s.cfg.retryDelayMs)
      rw [attempts_again h0 hlimit]
      cases hw : doWait s.cfg.retryDelayMs (.retryWait f (satInc16 n)) (failedOnce f st n rest s) with
      | blocked y =>
        obtain ⟨k, hy⟩ := doWait_blocked_eq hw
        exact ⟨_, by simp [retryAgain, Progress.state, hy, failedOnce_eq], hbefore.mono (by omega)⟩
      | done y =>
        have hy := (doWait_eq_done hw).2
        rw [failedOnce_eq] at hy
        have hcfg : y.cfg = s.cfg := by rw [hy]
        have hsts : y.statuses = rest := by rw [hy]
        obtain ⟨evs, htrace, hevs⟩ := ih (n := satInc16 n) (s := y) (by rwa [hcfg]) (by rw [hcfg]; omega)
        rw [hcfg] at hevs
        refine ⟨_, ?_, (hbefore.append hevs).mono (by omega)⟩
        rw [retryAgain, hsts, htrace, hy]
        simp

/-- Settles O23. -/
theorem frameHasAtMostOnePlusLimitAttempts : Obligations.FrameHasAtMostOnePlusLimitAttempts := by
  intro f s t hbounded h
  obtain ⟨evs, htrace, hevs⟩ := attempts_bounded f s.statuses (n := 0#16) hbounded (Nat.zero_le _)
  have hstate : (attempts f s.statuses 0#16 s).state = t := by
    rcases h with h | h <;> rw [sendFrame] at h <;> rw [h] <;> rfl
  exact ⟨evs, hstate ▸ htrace, hevs.count, hevs.same⟩

/-- With the answers and the pulses that the limit may ask for, SendFrame's loop completes, and leaves the others. -/
theorem attempts_completes (f : Frame) (sts : List Byte) {n : Half} {s : State} (hsts : s.statuses = sts)
    (hbounded : s.cfg.retryLimit ≠ 0#16) (hn : n.toNat ≤ s.cfg.retryLimit.toNat)
    (hanswers : 1 + (s.cfg.retryLimit.toNat - n.toNat) ≤ sts.length)
    (hticks : (s.cfg.retryLimit.toNat - n.toNat) * waitTicks s.cfg.retryDelayMs ≤ s.ticks) :
    ∃ t, attempts f sts n s = .done t ∧ sts.length ≤ t.statuses.length + (1 + (s.cfg.retryLimit.toNat - n.toNat))
      ∧ s.ticks ≤ t.ticks + (s.cfg.retryLimit.toNat - n.toNat) * waitTicks s.cfg.retryDelayMs := by
  induction sts generalizing n s with
  | nil => simp at hanswers
  | cons st rest ih =>
    by_cases h0 : st = 0#8
    · subst h0
      exact ⟨_, attempts_success .., by simp, by simp⟩
    by_cases hlimit : s.cfg.retryLimit ≠ 0#16 ∧ n = s.cfg.retryLimit
    · exact ⟨_, attempts_drop h0 hlimit.1 hlimit.2, by simp, by simp⟩
    · have hlt : n.toNat < s.cfg.retryLimit.toNat := by
        refine Nat.lt_of_le_of_ne hn fun he => hlimit ⟨hbounded, BitVec.eq_of_toNat_eq he⟩
      have hnext := satInc16_toNat hlt
      obtain ⟨left, hleft⟩ : ∃ left, s.cfg.retryLimit.toNat - n.toNat = left + 1 := ⟨_, (Nat.succ_pred (by omega)).symm⟩
      have hleft' : s.cfg.retryLimit.toNat - (satInc16 n).toNat = left := by omega
      rw [hleft, Nat.succ_mul] at hticks
      rw [attempts_again h0 hlimit, doWait_done _ (by rw [failedOnce_eq]; simp only; omega), failedOnce_eq, retryAgain]
      obtain ⟨t, ht, hst, htk⟩ := ih (n := satInc16 n) (s := { s with
          trace := s.trace ++ .frame s.cfg.addr f st :: logEvents s.cfg.debug .retry (st ++ capByte (satInc16 n))
            ++ waitEvents s.cfg.retryDelayMs
          statuses := rest, errcnt := satInc32 s.errcnt, ticks := s.ticks - waitTicks s.cfg.retryDelayMs }) rfl hbounded
        (by simp only; omega) (by simp only [hleft', List.length_cons] at hanswers ⊢; omega) (by simp only [hleft']; omega)
      simp only [hleft'] at hst htk
      refine ⟨t, ht, by rw [hleft, List.length_cons]; omega, ?_⟩
      rw [hleft, Nat.succ_mul]
      omega

end Sys2Proof.Machine
end

section
/-! PROOFS. Runs of primitives: those that complete, one after the other, and what each leaves (10_state.md R32, R37;
40_transport.md R108). -/

namespace Sys2Proof.Machine

/-! ## Primitives that complete one after the other -/

/-- The primitives complete, from `s` to `u`. -/
inductive RunsTo : List Prim → State → State → Prop where
  | nil (s : State) : RunsTo [] s s
  | cons {p : Prim} {ps : List Prim} {s t u : State} : runPrim p s = .done t → RunsTo ps t u → RunsTo (p :: ps) s u

theorem RunsTo.run_append {ps : List Prim} {s u : State} (h : RunsTo ps s u) (qs : List Prim) : run (ps ++ qs) s = run qs u := by
  induction h with
  | nil => rfl
  | cons hp _ ih => rw [List.cons_append, run_cons_done hp, ih]

theorem RunsTo.run {ps : List Prim} {s u : State} (h : RunsTo ps s u) : run ps s = complete u := by
  simpa using h.run_append []

/-- A run completes all its primitives, or stops at one that waits. -/
theorem run_cases (ps : List Prim) (s : State) : (∃ u, RunsTo ps s u) ∨
    ∃ before p after u t, ps = before ++ p :: after ∧ RunsTo before s u ∧ runPrim p u = .blocked t
      ∧ run ps s = { t with seq := { t.seq with todo := after } } := by
  induction ps generalizing s with
  | nil => exact .inl ⟨s, .nil s⟩
  | cons p ps ih =>
    cases hp : runPrim p s with
    | blocked t => exact .inr ⟨[], p, ps, s, t, rfl, .nil s, hp, run_cons_blocked hp⟩
    | done t =>
      rcases ih t with ⟨u, hu⟩ | ⟨before, q, after, u, v, hps, hu, hq, hrun⟩
      · exact .inl ⟨u, .cons hp hu⟩
      · exact .inr ⟨p :: before, q, after, u, v, by rw [hps]; rfl, .cons hp hu, hq, (run_cons_done hp).trans hrun⟩

/-! ## What completed primitives leave -/

/-- The primitives `ps` have completed from `s` in `t` with the events `evs`; `d` says whether a frame was dropped. -/
structure RunDone (ps : List Prim) (s t : State) (evs : List Event) (d : Bool) : Prop where
  trace : t.trace = s.trace ++ evs
  cfg : t.cfg = s.cfg
  seq : t.seq = { s.seq with dropped := s.seq.dropped || d }
  dropped : t.fFrameDropped = (s.fFrameDropped || d)
  regs : regs t = ps.foldl (fun r p => writes p r) (regs s)
  sent : d = true → 0 < ps.countP sendsFrame
  attempted : ps.countP sendsFrame ≤ evs.countP isAttempt
  ended : s.cfg.debug = true → evs.countP endsFrame = ps.countP sendsFrame
  waited : ((ps.filterMap waitOf?).filter fun d => d ≠ 0#16).Sublist (evs.filterMap delayOf?)

theorem runDone_nil (s : State) : RunDone [] s s [] false := by
  constructor <;> simp

theorem RunDone.append {ps qs : List Prim} {s t u : State} {xs ys : List Event} {d d' : Bool} (h : RunDone ps s t xs d)
    (h' : RunDone qs t u ys d') : RunDone (ps ++ qs) s u (xs ++ ys) (d || d') where
  trace := by rw [h'.trace, h.trace, List.append_assoc]
  cfg := h'.cfg.trans h.cfg
  seq := by rw [h'.seq, h.seq, Bool.or_assoc]
  dropped := by rw [h'.dropped, h.dropped, Bool.or_assoc]
  regs := by rw [h'.regs, h.regs, List.foldl_append]
  sent hd := by
    have hsent := h.sent
    have hsent' := h'.sent
    rw [List.countP_append]
    cases d <;> cases d' <;> simp_all
  attempted := by
    rw [List.countP_append, List.countP_append]
    exact Nat.add_le_add h.attempted h'.attempted
  ended hd := by rw [List.countP_append, List.countP_append, h.ended hd, h'.ended (h.cfg ▸ hd)]
  waited := by
    rw [List.filterMap_append, List.filterMap_append, List.filter_append]
    exact h.waited.append h'.waited

theorem writes_of_sends {p : Prim} (h : sendsFrame p = true) (r : Regs) : writes p r = r := by
  cases p
  case sendCmd | sendData | sendPayload => rfl
  all_goals cases h

theorem FrameSent.runDone {p : Prim} {s t : State} {evs : List Event} {d : Bool} (h : FrameSent s t evs d)
    (hp : sendsFrame p = true) : RunDone [p] s t evs d := by
  obtain ⟨hstate, hattempt, hend⟩ := h
  rw [hstate]
  exact ⟨rfl, rfl, rfl, rfl, (writes_of_sends hp _).symm, by simp [hp], by simpa [hp] using hattempt, by simpa [hp] using hend,
    by simp [waitOf?_of_sends hp]⟩

/-- A primitive that sends no frame leaves no attempt to count. -/
theorem runDone_of_state {p : Prim} {s t : State} {evs : List Event} (hp : sendsFrame p = false)
    (htrace : t.trace = s.trace ++ evs) (hcfg : t.cfg = s.cfg) (hseq : t.seq = s.seq)
    (hdropped : t.fFrameDropped = s.fFrameDropped) (hregs : regs t = writes p (regs s)) (hended : evs.countP endsFrame = 0)
    (hwaited : (([p].filterMap waitOf?).filter fun d => d ≠ 0#16).Sublist (evs.filterMap delayOf?)) : RunDone [p] s t evs false :=
  ⟨htrace, hcfg, by simp [hseq], by simp [hdropped], hregs, nofun, by simp [hp], fun _ => by simp [hp, hended], hwaited⟩

/-- Every primitive but OPEN's claim. -/
theorem runPrim_done {p : Prim} {s t : State} (hp : p ≠ .claimBus) (h : runPrim p s = .done t) :
    ∃ evs d, RunDone [p] s t evs d := by
  have hregs := runPrim_regs hp h
  cases p
  case claimBus => exact absurd rfl hp
  case sendCmd b | sendData b =>
    obtain ⟨evs, d, hsent⟩ := attempts_done _ _ h
    exact ⟨evs, d, hsent.runDone rfl⟩
  case sendPayload =>
    cases hpay : s.payload with
    | nil => rw [runPrim, sendNextPayload_nil hpay] at h; cases h
    | cons b rest =>
      rw [runPrim, sendNextPayload_cons hpay] at h
      obtain ⟨evs, d, hsent⟩ := attempts_done _ _ h
      exact ⟨evs, d, { hsent.runDone (p := .sendPayload) rfl with }⟩
  case dropPayload =>
    cases hpay : s.payload with
    | nil => rw [runPrim, dropNextPayload_nil hpay] at h; cases h
    | cons b rest =>
      rw [runPrim, dropNextPayload_cons hpay] at h
      cases h
      exact ⟨[], false, runDone_of_state rfl (by simp) rfl rfl rfl hregs rfl (by simp [waitOf?])⟩
  case wait d =>
    obtain ⟨-, rfl⟩ := doWait_eq_done h
    refine ⟨waitEvents d, false, runDone_of_state rfl rfl rfl rfl rfl hregs ?_ ?_⟩
    · unfold waitEvents
      split <;> simp [endsFrame]
    · by_cases hd : d = 0#16 <;> simp [waitOf?, waitEvents, hd, delayOf?]
  case releaseBus =>
    cases h
    exact ⟨[.release], false, runDone_of_state rfl rfl rfl rfl rfl hregs rfl (by simp [List.filterMap_cons, waitOf?])⟩
  all_goals
    cases h
    exact ⟨[], false, runDone_of_state rfl (by simp) rfl rfl rfl hregs rfl (by simp [waitOf?])⟩

theorem RunsTo.runDone {ps : List Prim} (hclaim : .claimBus ∉ ps) {s u : State} (h : RunsTo ps s u) :
    ∃ evs d, RunDone ps s u evs d := by
  induction h with
  | nil s => exact ⟨[], false, runDone_nil s⟩
  | cons hp _ ih =>
    rw [List.mem_cons, not_or] at hclaim
    obtain ⟨xs, d, hx⟩ := runPrim_done (Ne.symm hclaim.1) hp
    obtain ⟨ys, d', hy⟩ := ih hclaim.2
    exact ⟨xs ++ ys, d || d', hx.append hy⟩

/-- The claim too leaves the phase it started in. -/
theorem runPrim_done_phase {p : Prim} {s t : State} (h : runPrim p s = .done t) : t.seq.phase = s.seq.phase := by
  by_cases hp : p = .claimBus
  · subst hp
    cases hc : s.claims with
    | nil => rw [runPrim, claimBus_nil hc] at h; cases h
    | cons ok rest =>
      rw [runPrim, claimBus_cons hc] at h
      cases h
      cases ok <;> simp [claimAnswered]
  · obtain ⟨evs, d, hdone⟩ := runPrim_done hp h
    rw [hdone.seq]

end Sys2Proof.Machine
end

section
/-! PROOFS. Inputs that arrive late (00_scope.md R10; 10_state.md R37; 70_reset_and_hazards.md R258): a primitive that stopped to
wait goes on, when its input comes, as it would have gone with the input offered from the start. -/

namespace Sys2Proof.Machine

/-! ## Offering an input -/

/-- What the world outside may offer to a request in progress. -/
inductive Input where
  | status (sts : List Byte)
  | payload (bs : List Byte)
  | claim (oks : List Bool)
  | pulses (n : Nat)

def offer : Input → State → State
  | .status sts => offerStatus sts
  | .payload bs => offerPayload bs
  | .claim oks => offerClaim oks
  | .pulses n => offerTicks n

/-- A sequencer in this phase waits for this input, and there is some of it. -/
def Awaited : Input → Phase → Prop
  | .status sts, ph => sts ≠ [] ∧ ∃ f n, ph = .attempt f n
  | .payload bs, ph => bs ≠ [] ∧ (ph = .payloadSend ∨ ph = .payloadDrop)
  | .claim oks, ph => oks ≠ [] ∧ ph = .claiming
  | .pulses n, ph => n ≠ 0 ∧ ∃ left, ph = .waiting left ∨ ∃ f k, ph = .retryWait f k left

section
variable (i : Input) (s : State)

@[simp] theorem offer_cfg : (offer i s).cfg = s.cfg := by cases i <;> rfl
@[simp] theorem offer_par : (offer i s).par = s.par := by cases i <;> rfl
@[simp] theorem offer_blMask : (offer i s).blMask = s.blMask := by cases i <;> rfl
@[simp] theorem offer_busOpen : (offer i s).busOpen = s.busOpen := by cases i <;> rfl
@[simp] theorem offer_busy : (offer i s).busy = s.busy := by cases i <;> rfl
@[simp] theorem offer_seq : (offer i s).seq = s.seq := by cases i <;> rfl
@[simp] theorem offer_requests : (offer i s).requests = s.requests := by cases i <;> rfl

theorem offer_emit (e : Event) : emit e (offer i s) = offer i (emit e s) := by cases i <;> rfl
theorem offer_setPhase (ph : Phase) : setPhase ph (offer i s) = offer i (setPhase ph s) := by cases i <;> rfl
theorem offer_countFailure : countFailure (offer i s) = offer i (countFailure s) := by cases i <;> rfl
theorem offer_markNotReady : markNotReady (offer i s) = offer i (markNotReady s) := by cases i <;> rfl
theorem offer_accept (w : ReqWord) : accept w (offer i s) = offer i (accept w s) := by cases i <;> rfl
theorem offer_releaseBus : releaseBus (offer i s) = offer i (releaseBus s) := by cases i <;> rfl

theorem offer_logEvent (k : LogKind) (info : Half) : logEvent k info (offer i s) = offer i (logEvent k info s) := by
  cases h : s.cfg.debug <;> simp [logEvent, h, offer_emit]

theorem offer_dropFrame (st : Byte) : dropFrame st (offer i s) = offer i (dropFrame st s) := by
  unfold dropFrame
  rw [← offer_logEvent]
  cases i <;> rfl

theorem offer_raiseError (e : ErrorKind) (info : Half) : raiseError e info (offer i s) = offer i (raiseError e info s) := by
  rw [raiseError_eq, raiseError_eq]
  cases e <;> cases i <;> rfl

/-- What is offered beside the answers already there stays beside those that an attempt leaves. -/
theorem offer_answered (f : Frame) (st : Byte) (rest : List Byte) :
    answered f st (offer i { s with statuses := rest }).statuses (offer i s) = offer i (answered f st rest s) := by
  cases i <;> rfl

/-- An answer offered comes after those already there. -/
theorem offer_statuses_cons {st : Byte} {rest : List Byte} (h : s.statuses = st :: rest) :
    (offer i s).statuses = st :: (offer i { s with statuses := rest }).statuses := by
  cases i <;> simp [offer, offerStatus, offerPayload, offerClaim, offerTicks, h]

theorem offer_payload_cons {b : Byte} {rest : List Byte} (h : s.payload = b :: rest) :
    (offer i s).payload = b :: (offer i { s with payload := rest }).payload := by
  cases i <;> simp [offer, offerStatus, offerPayload, offerClaim, offerTicks, h]

theorem offer_claims_cons {ok : Bool} {rest : List Bool} (h : s.claims = ok :: rest) :
    (offer i s).claims = ok :: (offer i { s with claims := rest }).claims := by
  cases i <;> simp [offer, offerStatus, offerPayload, offerClaim, offerTicks, h]

end

/-! ## Waiting in a primitive -/

/-- `g` takes the input `i` late from `s`: where it completes it needs none of it, and where it waits for it, it goes on with it
as if it had been offered before. -/
structure Late (i : Input) (g : State → Progress) (s : State) : Prop where
  done : ∀ t, g s = .done t → g (offer i s) = .done (offer i t)
  waits : ∀ t, g s = .blocked t → Awaited i t.seq.phase → g (offer i s) = goOn (offer i t)

theorem Late.congr {i : Input} {g g' : State → Progress} {s s' : State} (h : Late i g' s') (hg : g s = g' s')
    (hg' : g (offer i s) = g' (offer i s')) : Late i g s :=
  ⟨fun t ht => hg'.trans (h.done t (hg.symm.trans ht)), fun t ht hw => hg'.trans (h.waits t (hg.symm.trans ht) hw)⟩

/-- A step that completes, whatever is offered, and leaves what is offered. -/
theorem late_of_done {i : Input} {g : State → Progress} {h : State → State} {s : State} (hg : ∀ s, g s = .done (h s))
    (hoffer : h (offer i s) = offer i (h s)) : Late i g s := by
  constructor <;> intro t ht <;> rw [hg] at ht
  · rw [hg, hoffer, ← Progress.done.inj ht]
  · exact Progress.noConfusion ht

theorem countTicks_late_done {i : Input} {left : Nat} {ph : Nat → Phase} {s t : State} (h : countTicks left ph s = .done t) :
    countTicks left ph (offer i s) = .done (offer i t) := by
  unfold countTicks at h ⊢
  split_ifs at h with hl
  cases h
  cases i
  case pulses n =>
    have : left ≤ s.ticks + n := by omega
    simp [offer, offerTicks, this]
    omega
  all_goals exact if_pos hl

/-- The pulses left to count are counted from those that come. -/
theorem countTicks_pulses {left n : Nat} {ph : Nat → Phase} {s t : State} (hstart : s.seq.phase = .start)
    (h : countTicks left ph s = .blocked t) : ∃ k, t.seq.phase = ph k ∧
      countTicks left ph (offer (.pulses n) s) = countTicks k ph (setPhase .start (offer (.pulses n) t)) := by
  have hseq : { s.seq with phase := .start } = s.seq := by rw [← hstart]
  unfold countTicks at h
  split_ifs at h with hl
  cases h
  refine ⟨left - s.ticks, rfl, ?_⟩
  have hle : left ≤ s.ticks + n ↔ left - s.ticks ≤ n := by omega
  have hdone : s.ticks + n - left = n - (left - s.ticks) := by omega
  have hwait : left - (s.ticks + n) = left - s.ticks - n := by omega
  simp only [countTicks, offer, offerTicks, setPhase, hle, hdone, hwait, hseq, Nat.zero_add]

theorem doWait_late_done {i : Input} {d : Half} {ph : Nat → Phase} {s t : State} (h : doWait d ph s = .done t) :
    doWait d ph (offer i s) = .done (offer i t) := by
  unfold doWait at h ⊢
  split_ifs at h ⊢ with hd
  · cases h; rfl
  · rw [offer_emit]
    exact countTicks_late_done h

theorem doWait_pulses {d : Half} {n : Nat} {ph : Nat → Phase} {s t : State} (hstart : s.seq.phase = .start)
    (h : doWait d ph s = .blocked t) : ∃ k, t.seq.phase = ph k ∧
      doWait d ph (offer (.pulses n) s) = countTicks k ph (setPhase .start (offer (.pulses n) t)) := by
  unfold doWait at h ⊢
  split_ifs at h ⊢ with hd
  rw [offer_emit]
  exact countTicks_pulses hstart h

/-- Only pulses are awaited in a Wait. -/
theorem awaited_waiting {i : Input} {left : Nat} (h : Awaited i (.waiting left)) : ∃ n, i = .pulses n := by
  cases i <;> simp [Awaited] at h ⊢

theorem awaited_retryWait {i : Input} {f : Frame} {k : Half} {left : Nat} (h : Awaited i (.retryWait f k left)) :
    ∃ n, i = .pulses n := by
  cases i <;> simp [Awaited] at h ⊢

theorem doWait_late (i : Input) (d : Half) {s : State} (hstart : s.seq.phase = .start) : Late i (doWait d .waiting) s := by
  refine ⟨fun t ht => doWait_late_done ht, fun t ht hw => ?_⟩
  obtain ⟨k, hk⟩ := (doWait_spec (F := fun _ => True) (P := fun _ => True) d .waiting s).2 t ht
  obtain ⟨n, rfl⟩ := awaited_waiting (hk ▸ hw)
  obtain ⟨k', hk', hcount⟩ := doWait_pulses (n := n) hstart ht
  rw [hcount, goOn, offer_seq, hk']

/-! ## SendFrame -/

theorem offer_failedOnce (i : Input) (f : Frame) (st : Byte) (n : Half) (rest : List Byte) (s : State) :
    failedOnce f st n (offer i { s with statuses := rest }).statuses (offer i s) = offer i (failedOnce f st n rest s) := by
  rw [failedOnce, offer_answered, offer_countFailure, offer_logEvent, ← failedOnce]

/-- The count `c` of a retry's delay, and the loop after it. -/
theorem retryAgain_late {i : Input} {f : Frame} {n : Half} {c : State → Progress} {s : State}
    (hdone : ∀ t, c s = .done t → c (offer i s) = .done (offer i t))
    (hpulses : ∀ m t, c s = .blocked t → ∃ k, t.seq.phase = .retryWait f n k
      ∧ c (offer (.pulses m) s) = countTicks k (.retryWait f n) (setPhase .start (offer (.pulses m) t)))
    (hloop : ∀ t, c s = .done t → Late i (fun s => attempts f s.statuses n s) t) :
    Late i (fun s => retryAgain f n (c s)) s := by
  cases hc : c s with
  | done t => exact (hloop t hc).congr (by rw [hc, retryAgain]) (by rw [hdone t hc, retryAgain])
  | blocked t =>
    constructor <;> intro u hu <;> rw [hc, retryAgain] at hu <;> cases hu
    intro hawaited
    obtain ⟨k, hk, -⟩ := hpulses 0 t hc
    obtain ⟨m, rfl⟩ := awaited_retryWait (hk ▸ hawaited)
    obtain ⟨k', hk', hcount⟩ := hpulses m t hc
    simp only [hcount, goOn, offer_seq, hk']

/-- SendFrame's loop takes late answers and late pulses. -/
theorem attempts_late (i : Input) (f : Frame) (sts : List Byte) : ∀ (n : Half) (s : State), s.statuses = sts →
    s.seq.phase = .start → Late i (fun s => attempts f s.statuses n s) s := by
  induction sts with
  | nil =>
    intro n s hsts hstart
    have hseq : setPhase .start (setPhase (.attempt f n) s) = s := by
      have : { s.seq with phase := .start } = s.seq := by rw [← hstart]
      simp [setPhase, this]
    refine ⟨fun t ht => ?_, fun t ht _ => ?_⟩ <;> rw [hsts] at ht <;> cases ht
    simp only [goOn, offer_seq, setPhase_seq, offer_setPhase, hseq]
    rw [← offer_setPhase]
    rfl
  | cons st rest ih =>
    intro n s hsts hstart
    have hoffer := offer_statuses_cons i s hsts
    have hanswered := offer_answered i s f st rest
    by_cases h0 : st = 0#8
    · constructor
      · intro t ht
        simp only [hsts, hoffer, attempts, if_pos h0] at ht ⊢
        cases ht
        rw [hanswered]
      · intro t ht
        simp [hsts, attempts, h0] at ht
    by_cases hlimit : s.cfg.retryLimit ≠ 0#16 ∧ n = s.cfg.retryLimit
    · constructor
      · intro t ht
        simp only [hsts, hoffer, attempts, if_neg h0, offer_cfg, if_pos hlimit] at ht ⊢
        cases ht
        rw [hanswered, offer_countFailure, offer_dropFrame]
      · intro t ht
        simp [hsts, attempts, h0, hlimit] at ht
    · have hx : (failedOnce f st n rest s).seq.phase = .start := by simpa [failedOnce] using hstart
      have hlater := retryAgain_late (i := i) (n := satInc16 n) (fun _ => doWait_late_done) (fun _ _ => doWait_pulses hx)
        fun t (ht : doWait s.cfg.retryDelayMs _ (failedOnce f st n rest s) = _) => by
          have hy := (doWait_eq_done ht).2
          exact ih (satInc16 n) t (by simp [hy, failedOnce]) (by rw [hy]; exact hx)
      refine hlater.congr ?_ ?_
      · rw [hsts, attempts_again h0 hlimit]
      · rw [hoffer, attempts_again h0 (by simpa using hlimit), offer_failedOnce, offer_cfg]

/-! ## Every primitive, and the one in progress -/

/-- Taken off a phase, the sequencer is at the start of the primitive again. -/
theorem setPhase_start_offer (i : Input) (ph : Phase) {s : State} (hstart : s.seq.phase = .start) :
    setPhase .start (offer i (setPhase ph s)) = offer i s := by
  have hseq : { s.seq with phase := .start } = s.seq := by rw [← hstart]
  rw [offer_setPhase]
  simp [setPhase, hseq]

theorem sendFrame_late (i : Input) (f : Frame) {s : State} (hstart : s.seq.phase = .start) : Late i (sendFrame f) s :=
  attempts_late i f s.statuses 0#16 s rfl hstart

theorem sendNextPayload_late (i : Input) {s : State} (hstart : s.seq.phase = .start) : Late i sendNextPayload s := by
  cases hp : s.payload with
  | nil =>
    constructor <;> intro t ht <;> rw [sendNextPayload_nil hp] at ht <;> cases ht
    intro _
    simp only [goOn, offer_seq, setPhase_seq, setPhase_start_offer i _ hstart]
  | cons b rest =>
    have hlate := sendFrame_late i (encodeByte b true s.blMask) (s := { s with payload := rest }) hstart
    have hoffer : sendNextPayload (offer i s) = sendFrame (encodeByte b true s.blMask) (offer i { s with payload := rest }) := by
      rw [sendNextPayload_cons (offer_payload_cons i s hp), offer_blMask]
      cases i <;> rfl
    constructor <;> intro t ht <;> rw [sendNextPayload_cons hp] at ht <;> rw [hoffer]
    · exact hlate.done t ht
    · exact hlate.waits t ht

theorem dropNextPayload_late (i : Input) {s : State} (hstart : s.seq.phase = .start) : Late i dropNextPayload s := by
  cases hp : s.payload with
  | nil =>
    constructor <;> intro t ht <;> rw [dropNextPayload_nil hp] at ht <;> cases ht
    intro _
    simp only [goOn, offer_seq, setPhase_seq, setPhase_start_offer i _ hstart]
  | cons b rest =>
    constructor <;> intro t ht <;> rw [dropNextPayload_cons hp] at ht <;> cases ht
    rw [dropNextPayload_cons (offer_payload_cons i s hp)]
    cases i <;> rfl

theorem offer_claimAnswered (i : Input) (ok : Bool) (rest : List Bool) (s : State) :
    claimAnswered ok (offer i { s with claims := rest }).claims (offer i s) = offer i (claimAnswered ok rest s) := by
  cases i <;> rfl

theorem claimBus_late (i : Input) {s : State} (hstart : s.seq.phase = .start) : Late i claimBus s := by
  cases hc : s.claims with
  | nil =>
    constructor <;> intro t ht <;> rw [claimBus_nil hc] at ht <;> cases ht
    intro _
    simp only [goOn, offer_seq, setPhase_seq, setPhase_start_offer i _ hstart]
  | cons ok rest =>
    constructor <;> intro t ht <;> rw [claimBus_cons hc] at ht <;> cases ht
    rw [claimBus_cons (offer_claims_cons i s hc), offer_claimAnswered, offer_cfg, offer_raiseError]
    cases ok <;> cases i <;> rfl

theorem runPrim_late (i : Input) (p : Prim) {s : State} (hstart : s.seq.phase = .start) : Late i (runPrim p) s := by
  cases p
  case sendCmd b =>
    refine (sendFrame_late i (encodeByte b false s.blMask) hstart).congr (by rw [runPrim, sendCommand]) ?_
    rw [runPrim, sendCommand, offer_blMask]
  case sendData b =>
    refine (sendFrame_late i (encodeByte b true s.blMask) hstart).congr (by rw [runPrim, sendDataByte]) ?_
    rw [runPrim, sendDataByte, offer_blMask]
  case sendPayload => exact sendNextPayload_late i hstart
  case dropPayload => exact dropNextPayload_late i hstart
  case wait d => exact doWait_late i d hstart
  case claimBus => exact claimBus_late i hstart
  case releaseBus => exact late_of_done (h := releaseBus) (fun _ => rfl) (offer_releaseBus i s)
  case setInitState st =>
    exact late_of_done (h := fun s => { s with initState := st }) (fun _ => rfl) (by cases i <;> rfl)
  case setCursorType ct =>
    exact late_of_done (h := fun s => { s with cursorType := ct, ctValid := true }) (fun _ => rfl) (by cases i <;> rfl)
  case setEntryMode m =>
    exact late_of_done (h := fun s => { s with entryMode := m, emValid := true }) (fun _ => rfl) (by cases i <;> rfl)
  case setBacklight on =>
    exact late_of_done (h := fun s => { s with blMask := blMaskOf on }) (fun _ => rfl) (by cases i <;> rfl)

theorem countTicks_done_phase {left : Nat} {ph : Nat → Phase} {s t : State} (h : countTicks left ph s = .done t) :
    t.seq.phase = s.seq.phase := by
  unfold countTicks at h
  split_ifs at h
  cases h
  rfl

theorem countTicks_late (i : Input) (left : Nat) {s : State} (hstart : s.seq.phase = .start) :
    Late i (countTicks left .waiting) s := by
  refine ⟨fun t ht => countTicks_late_done ht, fun t ht hw => ?_⟩
  obtain ⟨k, hk⟩ := (countTicks_spec (F := fun _ => True) (P := fun _ => True) left .waiting s).2 t ht
  obtain ⟨n, rfl⟩ := awaited_waiting (hk ▸ hw)
  obtain ⟨k', hk', hcount⟩ := countTicks_pulses (n := n) hstart ht
  rw [hcount, goOn, offer_seq, hk']

/-- The primitive in progress takes late inputs too. -/
theorem goOn_late (i : Input) (s : State) : Late i goOn s := by
  have hstart : (setPhase .start s).seq.phase = .start := rfl
  have hgo (g : State → Progress) (hlate : Late i g (setPhase .start s)) (h : goOn s = g (setPhase .start s))
      (h' : goOn (offer i s) = g (setPhase .start (offer i s))) : Late i goOn s :=
    by
    rw [offer_setPhase] at h'
    exact hlate.congr h h'
  cases hph : s.seq.phase with
  | start =>
    exact hgo Progress.done (late_of_done (h := id) (fun _ => rfl) rfl) (by simp only [goOn, hph])
      (by simp only [goOn, offer_seq, hph])
  | attempt f n =>
    exact hgo (fun s => attempts f s.statuses n s) (attempts_late i f _ n _ rfl hstart) (by simp only [goOn, hph]; rfl)
      (by simp only [goOn, offer_seq, hph]; rfl)
  | retryWait f n left =>
    refine hgo _ (retryAgain_late (c := countTicks left (.retryWait f n)) (fun _ => countTicks_late_done)
      (fun _ _ => countTicks_pulses hstart) fun t ht => attempts_late i f _ n t rfl ((countTicks_done_phase ht).trans hstart)) ?_ ?_
    · simp only [goOn, hph]
    · simp only [goOn, offer_seq, hph]
  | waiting left => exact hgo _ (countTicks_late i left hstart) (by simp only [goOn, hph]) (by simp only [goOn, offer_seq, hph])
  | claiming => exact hgo _ (claimBus_late i hstart) (by simp only [goOn, hph]) (by simp only [goOn, offer_seq, hph])
  | payloadSend => exact hgo _ (sendNextPayload_late i hstart) (by simp only [goOn, hph]) (by simp only [goOn, offer_seq, hph])
  | payloadDrop => exact hgo _ (dropNextPayload_late i hstart) (by simp only [goOn, hph]) (by simp only [goOn, offer_seq, hph])

/-! ## The whole run -/

/-- The state without the primitives left to run, which the one in progress does not read. -/
def withoutTodo (s : State) : State := { s with seq := { s.seq with todo := [] } }

theorem forgets_withoutTodo : Forgets withoutTodo := by
  constructor
  case logEvent => intro k info s; simp only [logEvent_eq]; rfl
  case setErrorFlag => rintro (_ | _) s <;> rfl
  all_goals (try unfold Respects); intros; rfl

theorem run_withoutTodo (ps : List Prim) {s s' : State} (h : withoutTodo s = withoutTodo s') : run ps s = run ps s' := by
  induction ps generalizing s s' with
  | nil => exact congrArg (fun u => complete (withoutTodo u)) h |>.trans rfl
  | cons p ps ih =>
    rw [run_cons, run_cons]
    rcases mapProgress_eq ((forgets_withoutTodo.runPrim p).congr h) with ⟨t, t', ht, ht', he⟩ | ⟨t, t', ht, ht', he⟩
    · rw [ht, ht']
      exact ih he
    · rw [ht, ht']
      exact congrArg (fun u : State => { u with seq := { u.seq with todo := ps } }) he

theorem continueRun_withoutTodo (ps : List Prim) {g g' : Progress} (h : mapProgress withoutTodo g = mapProgress withoutTodo g') :
    continueRun ps g = continueRun ps g' := by
  rcases mapProgress_eq h with ⟨t, t', rfl, rfl, he⟩ | ⟨t, t', rfl, rfl, he⟩
  · exact run_withoutTodo ps he
  · exact congrArg (fun u : State => { u with seq := { u.seq with todo := ps } }) he

theorem attempts_done_phase {f : Frame} {sts : List Byte} {n : Half} {s t : State} (h : attempts f sts n s = .done t) :
    t.seq.phase = s.seq.phase := by
  obtain ⟨evs, d, hsent⟩ := attempts_done f sts h
  rw [hsent.state]

/-- A primitive in progress that completes leaves the next one to start. -/
theorem goOn_done_phase {s t : State} (h : goOn s = .done t) : t.seq.phase = .start := by
  cases hph : s.seq.phase with
  | start => simp only [goOn, hph] at h; cases h; rfl
  | attempt f n => simp only [goOn, hph] at h; exact attempts_done_phase h
  | retryWait f n left =>
    simp only [goOn, hph] at h
    cases hc : countTicks left (.retryWait f n) (setPhase .start s) with
    | blocked u => rw [hc] at h; cases h
    | done u =>
      rw [hc] at h
      exact (attempts_done_phase h).trans (countTicks_done_phase hc)
  | waiting left => simp only [goOn, hph] at h; exact countTicks_done_phase h
  | claiming => simp only [goOn, hph] at h; exact runPrim_done_phase (p := .claimBus) h
  | payloadSend => simp only [goOn, hph] at h; exact runPrim_done_phase (p := .sendPayload) h
  | payloadDrop => simp only [goOn, hph] at h; exact runPrim_done_phase (p := .dropPayload) h

/-- A primitive that stopped, with those left to run recorded, goes on as it would without the record. -/
theorem continueRun_late {i : Input} {g : State → Progress} {s t : State} {ps : List Prim} (hlate : Late i g s)
    (h : g s = .blocked t) (hw : Awaited i t.seq.phase) : continueRun ps (g (offer i s)) =
      continueRun ps (goOn (offer i { t with seq := { t.seq with todo := ps } })) := by
  rw [hlate.waits t h hw]
  refine continueRun_withoutTodo ps (forgets_withoutTodo.goOn.congr ?_)
  cases i <;> rfl

theorem not_awaited_start {i : Input} : ¬ Awaited i .start := by
  cases i <;> simp [Awaited]

/-- A run that stopped takes late inputs. -/
theorem run_late {i : Input} (ps : List Prim) {s : State} (hstart : s.seq.phase = .start)
    (hw : Awaited i (run ps s).seq.phase) :
    run ps (offer i s) = continueRun (run ps s).seq.todo (goOn (offer i (run ps s))) := by
  induction ps generalizing s with
  | nil => exact absurd hw not_awaited_start
  | cons p ps ih =>
    have hlate := runPrim_late i p hstart
    rw [run_cons] at hw
    rw [run_cons, run_cons]
    cases hp : runPrim p s with
    | done t =>
      rw [hp] at hw
      rw [hlate.done t hp]
      exact ih ((runPrim_done_phase hp).trans hstart) hw
    | blocked t =>
      rw [hp] at hw
      exact continueRun_late hlate hp hw

/-- An awaited input ends the stuck state. -/
theorem stuckOn_awaited {i : Input} {t : State} (hw : Awaited i t.seq.phase) : stuckOn (offer i t) = none := by
  unfold stuckOn
  rw [offer_seq]
  cases i with
  | status sts =>
    obtain ⟨hsts, f, n, hph⟩ := hw
    simp [hph, offer, offerStatus, hsts]
  | payload bs =>
    obtain ⟨hbs, hph | hph⟩ := hw <;> simp [hph, offer, offerPayload, hbs]
  | claim oks =>
    obtain ⟨hoks, hph⟩ := hw
    simp [hph, offer, offerClaim, hoks]
  | pulses n =>
    obtain ⟨hn, left, hph | ⟨f, k, hph⟩⟩ := hw <;> simp [hph, offer, offerTicks, hn]

/-- An input that is awaited lets the request in progress go on. -/
theorem step_offer {i : Input} {t : State} (hbusy : t.busy = true) (hw : Awaited i t.seq.phase) :
    step (offer i t) = .next (continueRun t.seq.todo (goOn (offer i t))) := by
  rw [step_of_busy (by simpa using hbusy), resume_eq, stuckOn_awaited hw, offer_seq]
  rfl

/-- What is missing once more is offered was missing before. -/
theorem offer_missing (i : Input) (s : State) : ((offer i s).statuses = [] → s.statuses = [])
    ∧ ((offer i s).payload = [] → s.payload = []) ∧ ((offer i s).claims = [] → s.claims = [])
    ∧ ((offer i s).ticks = 0 → s.ticks = 0) := by
  cases i <;> simp +contextual [offer, offerStatus, offerPayload, offerClaim, offerTicks]

theorem stuckOn_offer {i : Input} {s : State} (h : stuckOn s = none) : stuckOn (offer i s) = none := by
  unfold stuckOn at h ⊢
  rw [offer_seq]
  obtain ⟨hstatuses, hpayload, hclaims, hticks⟩ := offer_missing i s
  cases hph : s.seq.phase <;> simp only [hph] at h ⊢ <;> split_ifs at h ⊢ <;> tauto

/-- An accepted request that stopped takes late inputs. -/
theorem checked_late {i : Input} (p : Plan) {s : State} (hstart : s.seq.phase = .start)
    (hw : Awaited i (checked p s).seq.phase) :
    checked p (offer i s) = continueRun (checked p s).seq.todo (goOn (offer i (checked p s))) := by
  have hrun : ∃ ps u, u.seq.phase = .start ∧ checked p s = run ps u ∧ checked p (offer i s) = run ps (offer i u) := by
    simp only [checked, offer_busOpen, endWith, runBody, offer_raiseError, offer_markNotReady]
    split
    · exact ⟨_, _, by simpa using hstart, rfl, rfl⟩
    split
    · exact ⟨_, _, by simpa using hstart, rfl, rfl⟩
    split
    · exact ⟨_, _, by simpa using hstart, rfl, rfl⟩
    · refine ⟨p.body, _, ?_, rfl, ?_⟩ <;> split <;> simp [hstart]
  obtain ⟨ps, u, hu, hs, hoffer⟩ := hrun
  rw [hs] at hw ⊢
  rw [hoffer]
  exact run_late ps hu hw

theorem request_late {i : Input} (p : Plan) {s t : State} (hidle : s.busy = false) (h : request p s = .next t)
    (hbusy : t.busy = true) (hw : Awaited i t.seq.phase) : step (offer i t) = request p (offer i s) := by
  rw [request_idle hidle] at h
  rw [request_idle (by simpa using hidle), step_offer hbusy hw, offer_accept]
  cases h
  rw [checked_late p rfl hw]

theorem exec_late {i : Input} (r : Instr) {s t : State} (hidle : s.busy = false) (h : exec r s = .next t)
    (hbusy : t.busy = true) (hw : Awaited i t.seq.phase) : step (offer i t) = exec r (offer i s) := by
  rw [exec_eq_request] at h ⊢
  rw [planFor_congr r (by simp) (by simp) (offer_par i s) (offer_busOpen i s)]
  exact request_late _ hidle h hbusy hw

theorem runWord_late {i : Input} (w : ReqWord) {s t : State} (hidle : s.busy = false) (h : runWord w s = .next t)
    (hbusy : t.busy = true) (hw : Awaited i t.seq.phase) : step (offer i t) = runWord w (offer i s) := by
  unfold runWord at h ⊢
  split at h
  · exact exec_late _ hidle h hbusy hw
  · exact request_late _ hidle h hbusy hw

/-- A request in progress that stops again takes late inputs too. -/
theorem continueRun_goOn_late {i : Input} {s : State} (hw : Awaited i (continueRun s.seq.todo (goOn s)).seq.phase) :
    continueRun s.seq.todo (goOn (offer i s)) = continueRun (continueRun s.seq.todo (goOn s)).seq.todo
      (goOn (offer i (continueRun s.seq.todo (goOn s)))) := by
  have hlate := goOn_late i s
  cases hg : goOn s with
  | done u =>
    rw [hg] at hw
    rw [hlate.done u hg]
    exact run_late _ (goOn_done_phase hg) hw
  | blocked u =>
    rw [hg] at hw
    exact continueRun_late hlate hg hw

theorem step_late {i : Input} {s t : State} (h : step s = .next t) (hbusy : t.busy = true) (hw : Awaited i t.seq.phase) :
    step (offer i t) = step (offer i s) := by
  cases hs : s.busy with
  | true =>
    rw [step_of_busy hs] at h
    obtain ⟨hstuck, rfl⟩ := resume_eq_goOn h
    rw [step_offer hbusy hw, step_of_busy (by simpa using hs), resume_eq, stuckOn_offer hstuck, offer_seq,
      ← continueRun_goOn_late hw]
    rfl
  | false =>
    cases hreq : s.requests with
    | nil =>
      rw [idleStepWaitsAndAPlacedWordIsRunNext.1 s hs hreq] at h
      cases h
      cases hs.symm.trans hbusy
    | cons w ws =>
      rw [step_idle hs hreq] at h
      rw [step_idle (by simpa using hs) ((offer_requests i s).trans hreq),
        runWord_late (s := { s with requests := ws }) w hs h hbusy hw]
      cases i <;> rfl

/-- `TakesLateInputs`, input by input. -/
theorem takesLateInputs {run : State → Result} {s t : State}
    (h : ∀ i, Awaited i t.seq.phase → step (offer i t) = run (offer i s)) : TakesLateInputs run s t where
  status sts hsts hph := h (.status sts) ⟨hsts, hph⟩
  payload bs hbs hph := h (.payload bs) ⟨hbs, hph⟩
  claim oks hoks hph := h (.claim oks) ⟨hoks, hph⟩
  tick n hn hph := h (.pulses n) ⟨hn, hph⟩

/-- Settles O12: the primitive that waits takes its input late (`runPrim_late`, `goOn_late`), so the run it stands in does. -/
theorem answersMayArriveLate : Obligations.AnswersMayArriveLate :=
  ⟨fun r _ _ hidle h hbusy => takesLateInputs fun _ hw => exec_late r hidle h hbusy hw,
    fun _ _ h hbusy => takesLateInputs fun _ hw => step_late h hbusy hw⟩

end Sys2Proof.Machine
end

section
/-! PROOFS. Requests whose frames are delivered and whose inputs are all there (70_reset_and_hazards.md R254): the whole state
they leave. -/

namespace Sys2Proof.Machine

/-! ## Primitives whose inputs are there -/

/-- What a primitive other than OPEN's claim leaves, its frame delivered at the first attempt, its payload byte and its pulses
there. -/
def served (s : State) : Prim → State
  | .sendCmd b => { s with trace := s.trace ++ [cmdSent s b], statuses := s.statuses.tail }
  | .sendData b => { s with trace := s.trace ++ [dataSent s b], statuses := s.statuses.tail }
  | .sendPayload => { s with trace := s.trace ++ [dataSent s (s.payload.headD 0#8)], statuses := s.statuses.tail
                             payload := s.payload.tail }
  | .dropPayload => { s with payload := s.payload.tail }
  | .wait d => { s with trace := s.trace ++ waitEvents d, ticks := s.ticks - waitTicks d }
  | .setInitState st => { s with initState := st }
  | .setCursorType ct => { s with cursorType := ct, ctValid := true }
  | .setEntryMode m => { s with entryMode := m, emValid := true }
  | .setBacklight on => { s with blMask := blMaskOf on }
  | .claimBus => s
  | .releaseBus => releaseBus s

/-- The pulses of the Waits among the primitives. -/
def ticksOf (ps : List Prim) : Nat := ((ps.filterMap waitOf?).map waitTicks).sum

/-- The primitives make no claim, and their inputs are there, each frame's answer being success; `rest` is answered after. -/
structure Supplied (ps : List Prim) (rest : List Byte) (s : State) : Prop where
  noClaim : .claimBus ∉ ps
  statuses : s.statuses = List.replicate (ps.countP sendsFrame) 0#8 ++ rest
  payload : ps.countP takesPayload ≤ s.payload.length
  ticks : ticksOf ps ≤ s.ticks

/-- A payload byte is there for a primitive that takes one. -/
theorem exists_payload_cons {p : Prim} {ps : List Prim} {s : State} (htakes : takesPayload p = true)
    (h : (p :: ps).countP takesPayload ≤ s.payload.length) :
    ∃ b bs, s.payload = b :: bs ∧ ps.countP takesPayload ≤ bs.length := by
  rw [List.countP_cons_of_pos htakes] at h
  obtain ⟨b, bs, hb⟩ := List.exists_cons_of_length_pos (Nat.lt_of_lt_of_le (Nat.succ_pos _) h)
  rw [hb] at h
  exact ⟨b, bs, hb, Nat.le_of_succ_le_succ h⟩

/-- The first of the primitives runs, and the inputs of the others are there after it. -/
theorem Supplied.cons {p : Prim} {ps : List Prim} {rest : List Byte} {s : State} (h : Supplied (p :: ps) rest s) :
    runPrim p s = .done (served s p) ∧ Supplied ps rest (served s p) := by
  obtain ⟨hclaim, hstatuses, hpayload, hticks⟩ := h
  rw [List.mem_cons, not_or] at hclaim
  obtain ⟨hp, hclaim⟩ := hclaim
  have hframe (hsends : sendsFrame p = true) :
      s.statuses = 0#8 :: (List.replicate (ps.countP sendsFrame) 0#8 ++ rest) := by
    rw [hstatuses, List.countP_cons_of_pos hsends]
    rfl
  cases p
  case claimBus => exact absurd rfl hp
  case sendCmd b | sendData b =>
    have hst := hframe rfl
    exact ⟨(sendFrame_delivered hst).trans (by simp [served, answered, emit, hst, cmdSent, dataSent]),
      hclaim, by simp [served, hst], by simpa [takesPayload, served] using hpayload, hticks⟩
  case sendPayload =>
    have hst := hframe rfl
    obtain ⟨b, bs, hb, hlen⟩ := exists_payload_cons rfl hpayload
    refine ⟨?_, hclaim, by simp [served, hst], by simpa [served, hb] using hlen, hticks⟩
    rw [runPrim, sendNextPayload_cons hb, sendFrame_delivered (s := { s with payload := bs }) hst]
    simp [served, answered, emit, hst, hb, dataSent]
  case dropPayload =>
    obtain ⟨b, bs, hb, hlen⟩ := exists_payload_cons rfl hpayload
    refine ⟨?_, hclaim, hstatuses, by simpa [served, hb] using hlen, hticks⟩
    rw [runPrim, dropNextPayload_cons hb]
    simp [served, hb]
  case wait d =>
    have hsum : waitTicks d + ticksOf ps ≤ s.ticks := hticks
    exact ⟨doWait_done _ (by omega), hclaim, hstatuses, hpayload, Nat.le_sub_of_add_le' hsum⟩
  all_goals exact ⟨rfl, hclaim, hstatuses, hpayload, hticks⟩

/-- The first of the primitives complete, and the inputs of the others are there after them. -/
theorem Supplied.append {ps qs : List Prim} {rest : List Byte} {s : State} (h : Supplied (ps ++ qs) rest s) :
    RunsTo ps s (ps.foldl served s) ∧ Supplied qs rest (ps.foldl served s) := by
  induction ps generalizing s with
  | nil => exact ⟨.nil s, h⟩
  | cons p ps ih =>
    obtain ⟨hp, hps⟩ := h.cons
    obtain ⟨hruns, hqs⟩ := ih hps
    exact ⟨.cons hp hruns, hqs⟩

/-- Primitives whose inputs are there all complete. -/
theorem Supplied.runsTo {ps : List Prim} {rest : List Byte} {s : State} (h : Supplied ps rest s) :
    RunsTo ps s (ps.foldl served s) :=
  (Supplied.append (qs := []) (by rwa [List.append_nil])).1

/-- The events of primitives whose inputs are there: an attempt for each frame, and the Waits. -/
theorem served_events {ps : List Prim} (hclaim : .claimBus ∉ ps) (s : State) : ∃ evs, (ps.foldl served s).trace = s.trace ++ evs
    ∧ evs.countP isAttempt = ps.countP sendsFrame
    ∧ evs.filterMap delayOf? = (ps.filterMap waitOf?).filter fun d => d ≠ 0#16 := by
  induction ps generalizing s with
  | nil => exact ⟨[], by simp, rfl, rfl⟩
  | cons p ps ih =>
    rw [List.mem_cons, not_or] at hclaim
    have hp : ∃ xs, (served s p).trace = s.trace ++ xs ∧ xs.countP isAttempt = [p].countP sendsFrame
        ∧ xs.filterMap delayOf? = ([p].filterMap waitOf?).filter fun d => d ≠ 0#16 := by
      cases p
      case claimBus => exact absurd rfl hclaim.1
      case wait d =>
        refine ⟨waitEvents d, rfl, ?_, ?_⟩ <;>
          by_cases hd : d = 0#16 <;> simp [waitEvents, hd, isAttempt, sendsFrame, waitOf?, delayOf?]
      case sendCmd | sendData | sendPayload | releaseBus => exact ⟨[_], rfl, rfl, rfl⟩
      all_goals exact ⟨[], (List.append_nil _).symm, rfl, rfl⟩
    obtain ⟨xs, hx, hxa, hxw⟩ := hp
    obtain ⟨ys, hy, hya, hyw⟩ := ih hclaim.2 (served s p)
    refine ⟨xs ++ ys, ?_, ?_, ?_⟩
    · rw [List.foldl_cons, hy, hx, List.append_assoc]
    · rw [List.countP_append, hxa, hya, ← List.countP_append]
      rfl
    · rw [List.filterMap_append, hxw, hyw, ← List.filter_append, ← List.filterMap_append]
      rfl

/-! ## Lists of primitives -/

/-- The primitive sends a frame whose byte it holds. -/
def SendsByte (p : Prim) : Prop := (∃ b, p = .sendCmd b) ∨ ∃ b, p = .sendData b

/-- The event of such a primitive, its frame delivered at the first attempt. -/
def frameEvent (addr : Addr7) (bm : Byte) : Prim → Event
  | .sendCmd b => .frame addr (encodeByte b false bm) 0#8
  | .sendData b => .frame addr (encodeByte b true bm) 0#8
  | _ => .release

theorem served_frames {ps : List Prim} (h : ∀ p ∈ ps, SendsByte p) (s : State) : ps.foldl served s = { s with
    trace := s.trace ++ ps.map (frameEvent s.cfg.addr s.blMask), statuses := s.statuses.drop ps.length } := by
  induction ps generalizing s with
  | nil => simp
  | cons p ps ih =>
    obtain ⟨hp, hps⟩ := List.forall_mem_cons.mp h
    rw [List.foldl_cons, ih hps]
    rcases hp with ⟨b, rfl⟩ | ⟨b, rfl⟩ <;> simp [served, frameEvent, cmdSent, dataSent]

theorem served_sendPayload {text more : List Byte} {s : State} (h : s.payload = text ++ more) :
    (List.replicate text.length .sendPayload).foldl served s = { s with
      trace := s.trace ++ text.map (dataSent s), statuses := s.statuses.drop text.length, payload := more } := by
  induction text generalizing s with
  | nil =>
    rw [List.nil_append] at h
    simp [← h]
  | cons b bs ih =>
    have hpayload : (served s .sendPayload).payload = bs ++ more := by simp [served, h]
    rw [List.length_cons, List.replicate_succ, List.foldl_cons, ih hpayload]
    simp [served, dataSent, h]

/-! ## Whole requests -/

/-- A request accepted, its checks passed, the readiness mark set where it is due (60_exceptions.md R207). -/
def started (i : Instr) (s : State) : State :=
  if wouldSendFrame i && !isInit i then markNotReady (accept (encode i) s) else accept (encode i) s

section
variable (i : Instr) (s : State)

@[simp] theorem started_cfg : (started i s).cfg = s.cfg := by unfold started; split <;> rfl
@[simp] theorem started_busy : (started i s).busy = true := by unfold started; split <;> rfl
@[simp] theorem started_seq : (started i s).seq = { Seq.idle with word := encode i } := by unfold started; split <;> rfl
@[simp] theorem started_fFrameDropped : (started i s).fFrameDropped = s.fFrameDropped := by unfold started; split <;> rfl
@[simp] theorem started_trace : (started i s).trace = s.trace := by unfold started; split <;> rfl
@[simp] theorem started_payload : (started i s).payload = s.payload := by unfold started; split <;> rfl
@[simp] theorem started_statuses : (started i s).statuses = s.statuses := by unfold started; split <;> rfl
@[simp] theorem started_ticks : (started i s).ticks = s.ticks := by unfold started; split <;> rfl

theorem regs_started : regs (started i s) = regs s := by unfold started; split <;> rfl

end

theorem exec_passes {i : Instr} {s : State} (hidle : s.busy = false) (h : Passes i s) :
    exec i s = .next (run (bodyOf i s) (started i s)) := by
  have hillegal : illegalOf i s = false := (illegalOf_eq_false_iff i s).mpr ⟨h.wellFormed, h.closed⟩
  have hrange : rangeOf i s = none := (rangeOf_eq_none_iff i s).mpr h.range
  have hwould := wouldSend_planFor h.range
  have hopen : (wouldSendFrame i && !s.busOpen) = false := by
    cases hw : wouldSendFrame i
    · rfl
    · simp [h.bus hw]
  rw [exec_eq_request, request_idle hidle]
  simp [checked, hillegal, hrange, hwould, hopen, runBody, started]

/-- A request on an open bus that passes checks 1 and 2. -/
theorem passes_of_open {i : Instr} {s : State} (hopen : s.busOpen = true) (hi : i ≠ .openBus) (hwf : i.wellFormed = true)
    (hrange : PassesRange i s.cfg) : Passes i s :=
  ⟨hwf, fun h => absurd h hi, hrange, fun _ => hopen⟩

/-- A request that passes its checks, on an open bus with all its inputs there. -/
theorem exec_served {i : Instr} {s : State} {k T : Nat} {rest : List Byte} (h : Served s k rest T) (hi : i ≠ .openBus)
    (hwf : i.wellFormed = true) (hrange : PassesRange i s.cfg) (hframes : frameCount s.cfg i = k)
    (hticks : ((waitsOf s.par i).map waitTicks).sum ≤ T) (hpayload : payloadLen (encode i) ≤ s.payload.length) :
    exec i s = .next (complete ((bodyOf i s).foldl served (started i s))) := by
  obtain ⟨hidle, hopen, hstatuses, hT⟩ := h
  have hsupplied : Supplied (bodyOf i s) rest (started i s) :=
    { noClaim := claimBus_notMem_bodyOf hi s
      statuses := by rw [bodyOf_frames hrange, hframes, started_statuses, hstatuses]
      payload := by rwa [bodyOf_payload, started_payload]
      ticks := by rw [ticksOf, bodyOf_waits, started_ticks]; exact hticks.trans hT }
  rw [exec_passes hidle (passes_of_open hopen hi hwf hrange), hsupplied.runsTo.run]

/-- Settles O59: the frames and Waits of the row are those of the plan (`bodyOf_frames`, `bodyOf_waits`). -/
theorem framesAndWaitsOfEveryRequest : Obligations.FramesAndWaitsOfEveryRequest := by
  intro i s rest hi hwf hrange hpayload hserved
  obtain ⟨evs, htrace, hattempts, hwaits⟩ := served_events (claimBus_notMem_bodyOf hi s) (started i s)
  refine ⟨_, evs ++ [.resp (respCode ((bodyOf i s).foldl served (started i s)).seq)],
    exec_served hserved hi hwf hrange rfl le_rfl hpayload, rfl, ?_, ?_, ?_⟩
  · rw [complete_trace, htrace, started_trace, List.append_assoc]
  · rw [List.countP_append, hattempts, bodyOf_frames hrange]
    rfl
  · rw [List.filterMap_append, hwaits, bodyOf_waits]
    exact List.append_nil _

/-! ## Requests that send frames -/

/-- A request other than INIT that has sent its frames `evs`, all delivered, with the answers `rest` left. -/
def sent (i : Instr) (s : State) (evs : List Event) (rest : List Byte) (ticks : Nat) : State :=
  { s with
    busy := true, seq := { Seq.idle with word := encode i }, fNotReadyUse := s.fNotReadyUse || s.initState != .ready
    trace := s.trace ++ evs, statuses := rest, ticks := s.ticks - ticks }

theorem started_eq_sent {i : Instr} (hsends : wouldSendFrame i = true) (hinit : isInit i = false) (s : State) :
    started i s = sent i s [] s.statuses 0 := by
  simp [started, hsends, hinit, sent, markNotReady, accept]

/-- It completes as `afterOk` says. -/
theorem complete_sent {s : State} (hidle : s.busy = false) (i : Instr) (evs : List Event) (rest : List Byte) (ticks : Nat) :
    complete (sent i s evs rest ticks) = afterOk s evs rest ticks := by
  simp [complete, sent, afterOk, emit, respCode, Seq.idle, respOk, hidle]

/-- A request other than INIT that only sends frames whose bytes it holds. -/
theorem exec_frames {i : Instr} {s : State} {rest : List Byte} (hserved : Served s (frameCount s.cfg i) rest 0)
    (hwf : i.wellFormed = true) (hrange : PassesRange i s.cfg) (hsends : wouldSendFrame i = true) (hinit : isInit i = false)
    (hbytes : ∀ p ∈ bodyOf i s, SendsByte p) :
    exec i s = .next (afterOk s ((bodyOf i s).map (frameEvent s.cfg.addr s.blMask)) rest 0) := by
  have hopen : i ≠ .openBus := by rintro rfl; cases hsends
  have hwaits : waitsOf s.par i = [] := by
    rw [← bodyOf_waits i s, List.filterMap_eq_nil_iff]
    intro p hp
    rcases hbytes p hp with ⟨b, rfl⟩ | ⟨b, rfl⟩ <;> rfl
  have hpayload : payloadLen (encode i) = 0 := by
    rw [← bodyOf_payload i s, List.countP_eq_zero]
    intro p hp
    rcases hbytes p hp with ⟨b, rfl⟩ | ⟨b, rfl⟩ <;> simp [takesPayload]
  have hlength : (bodyOf i s).length = frameCount s.cfg i := by
    rw [← bodyOf_frames hrange, eq_comm, List.countP_eq_length]
    intro p hp
    rcases hbytes p hp with ⟨b, rfl⟩ | ⟨b, rfl⟩ <;> rfl
  rw [exec_served hserved hopen hwf hrange rfl (by simp [hwaits]) (by simp [hpayload]), started_eq_sent hsends hinit,
    served_frames hbytes, ← complete_sent hserved.idle i, hlength]
  simp [sent, hserved.statuses]

/-- Settles O37. -/
theorem moveCursorAndScrollRepeatTheirStep : Obligations.MoveCursorAndScrollRepeatTheirStep := by
  intro count s rest hn hserved
  have hsends : decide (1 ≤ count.toNat) = true := decide_eq_true hn
  have hrepeat (b : Byte) {ps : List Prim} (hps : ps = List.replicate count.toNat (.sendCmd b)) :
      (∀ p ∈ ps, SendsByte p) ∧ ps.map (frameEvent s.cfg.addr s.blMask) = List.replicate count.toNat (cmdSent s b) := by
    rw [hps]
    exact ⟨fun p hp => .inl ⟨b, List.eq_of_mem_replicate hp⟩, List.map_replicate ..⟩
  have hmove (b : Byte) (dir : Byte) (hwf : (Instr.moveCursor dir count).wellFormed = true)
      (hb : moveCmd s.par.cmd (enum1 dir) = b) :
      exec (.moveCursor dir count) s = .next (afterOk s (List.replicate count.toNat (cmdSent s b)) rest 0) := by
    have h := hrepeat b (ps := bodyOf (.moveCursor dir count) s) (by rw [bodyOf, hb])
    rw [exec_frames (i := .moveCursor dir count) hserved hwf trivial hsends rfl h.1, h.2]
  have hscroll (b : Byte) (dir : Byte) (hwf : (Instr.scroll dir count).wellFormed = true)
      (hb : scrollCmd s.par.cmd (enum1 dir) = b) :
      exec (.scroll dir count) s = .next (afterOk s (List.replicate count.toNat (cmdSent s b)) rest 0) := by
    have h := hrepeat b (ps := bodyOf (.scroll dir count) s) (by rw [bodyOf, hb])
    rw [exec_frames (i := .scroll dir count) hserved hwf trivial hsends rfl h.1, h.2]
  exact ⟨hmove _ 0#8 rfl rfl, hmove _ 1#8 rfl rfl, hscroll _ 0#8 rfl rfl, hscroll _ 1#8 rfl rfl⟩

theorem clearRow_events {cols row : Byte} (h : RowReachable cols row) (s : State) :
    (clearRow cols row).map (frameEvent s.cfg.addr s.blMask) =
      cmdSent s (rowStart cols row) :: List.replicate cols.toNat (dataSent s 0x20#8) := by
  have haddr : rowAddr? cols row 0#8 = some (rowStart cols row) := by
    rcases h with rfl | rfl | ⟨rfl | rfl, rfl | rfl⟩ <;> rfl
  simp [clearRow, haddr, frameEvent, spaceChar, cmdSent, dataSent]

/-- Settles O34. -/
theorem clearLineWritesSpacesToItsRow : Obligations.ClearLineWritesSpacesToItsRow := by
  intro row s rest hrow hserved
  rw [exec_frames (i := .clearLine row) hserved rfl hrow rfl rfl fun p hp => mem_clearRow hp, bodyOf, clearRow_events hrow]

theorem rowsInOrder_eq_rowsCleared {c : Cfg} (h : GeometryValid c) (o : RowOrder) :
    rowsInOrder o c.rows.toNat = rowsCleared o c.rows.toNat := by
  obtain ⟨hlo, hhi, -⟩ := h
  generalize c.rows.toNat = n at *
  interval_cases n <;> cases o <;> rfl

/-- Settles O33. -/
theorem clearScreenWritesSpacesToEveryRow : Obligations.ClearScreenWritesSpacesToEveryRow := by
  intro s rest hgeometry hserved
  have hrows := (rowsInOrder_valid hgeometry s.par.rowOrder).2
  have hbytes : ∀ p ∈ bodyOf .clearScreen s, SendsByte p := by
    intro p hp
    obtain ⟨r, -, hr⟩ := List.mem_flatMap.mp hp
    exact mem_clearRow hr
  rw [exec_frames (i := .clearScreen) hserved rfl hgeometry rfl rfl hbytes, bodyOf, List.map_flatMap,
    ← rowsInOrder_eq_rowsCleared hgeometry, List.flatMap_congr fun r hr => clearRow_events (hrows r hr) s]

/-- Settles O28. -/
theorem sendStringSendsItsPayloadInOrder : Obligations.SendStringSendsItsPayloadInOrder := by
  intro n s text more rest hn hpayload hlen hserved
  have hlength : payloadLen (encode (.sendString n)) ≤ s.payload.length := by
    rw [hpayload, List.length_append, hlen]
    simp [payloadLen, encode]
  have hbody : bodyOf (.sendString n) s = List.replicate text.length .sendPayload := by rw [hlen]; rfl
  rw [exec_served (i := .sendString n) hserved (by simp) rfl trivial rfl (Nat.zero_le _) hlength,
    started_eq_sent (by simpa [wouldSendFrame] using hn) rfl, hbody,
    served_sendPayload (s := sent (.sendString n) s [] s.statuses 0) (more := more) hpayload,
    ← complete_sent hserved.idle (.sendString n)]
  simp [sent, hserved.statuses, hlen, complete, emit, dataSent]

/-- A byte below `k` is one of `k` bytes. -/
theorem exists_ofNat_of_lt {a : Byte} {k : Nat} (h : a.toNat < k) : ∃ n, n < k ∧ a = BitVec.ofNat 8 n :=
  ⟨a.toNat, h, by simp⟩

theorem cgramCmd_eq {slot : Byte} (h : slot.toNat < 8) : cgramCmd slot = BitVec.ofNat 8 (0x40 + 8 * slot.toNat) := by
  obtain ⟨n, hn, rfl⟩ := exists_ofNat_of_lt h
  interval_cases n <;> rfl

/-- Settles O39. -/
theorem createCustomCharSendsAddressAndGlyph : Obligations.CreateCustomCharSendsAddressAndGlyph := by
  intro slot s glyph more rest hslot hpayload hlen hserved
  have hlength : payloadLen (encode (.createCustomChar slot)) ≤ s.payload.length := by
    rw [hpayload, List.length_append, hlen]
    simp [payloadLen, encode]
  have hbody : bodyOf (.createCustomChar slot) s = .sendCmd (cgramCmd slot) :: List.replicate glyph.length .sendPayload := by
    rw [hlen]
    rfl
  rw [exec_served (i := .createCustomChar slot) hserved (by simp) rfl hslot rfl (Nat.zero_le _) hlength,
    started_eq_sent rfl rfl, hbody, List.foldl_cons,
    served_sendPayload (s := served (sent (.createCustomChar slot) s [] s.statuses 0) (.sendCmd (cgramCmd slot)))
      (more := more) hpayload,
    ← complete_sent hserved.idle (.createCustomChar slot)]
  simp [served, sent, hserved.statuses, hlen, complete, emit, dataSent, cmdSent, cgramCmd_eq hslot]

theorem enum2_eq (a : Byte) : enum2 a = a.setWidth 2 := by
  rw [BitVec.setWidth_eq_extractLsb' (by decide)]
  rfl

/-- The operand selects its entry of the cursor table (30_encoding.md R76). -/
theorem cursorCmd_enum2 {ct : Byte} (h : ct.toNat < 4) (c : CmdTable) : cursorCmd c (ct.setWidth 2) = cursorByte c ct := by
  obtain ⟨n, hn, rfl⟩ := exists_ofNat_of_lt h
  interval_cases n <;> rfl

/-- And its entry of the entry-mode table (30_encoding.md R77). -/
theorem entryCmd_enum2 {m : Byte} (h : m.toNat < 4) (c : CmdTable) : entryCmd c (m.setWidth 2) = entryByte c m := by
  obtain ⟨n, hn, rfl⟩ := exists_ofNat_of_lt h
  interval_cases n <;> rfl

/-- Settles O31. -/
theorem resetScreenResendsTheConfiguration : Obligations.ResetScreenResendsTheConfiguration := by
  intro ct s rest hct hserved
  have hwf : (Instr.resetScreen ct).wellFormed = true := by simpa [Instr.wellFormed] using hct
  rw [exec_served (i := .resetScreen ct) hserved (by simp) hwf trivial rfl (by simp [waitsOf]) (by simp [payloadLen, encode]),
    started_eq_sent rfl rfl]
  simp [bodyOf, resetScreenBody, served, sent, complete, emit, afterOk, hserved.statuses, hserved.idle, respCode, Seq.idle,
    respOk, cmdSent, enum2_eq, cursorCmd_enum2 hct, defaultEntry, entryCmd]

end Sys2Proof.Machine
end

section
/-! PROOFS. Requests of one frame, delivered after any retries (40_transport.md R105), and requests that send none. -/

namespace Sys2Proof.Machine

/-- A request that has sent its one frame `f`, after the failed attempts `fails`. -/
def sentAfter (i : Instr) (s : State) (f : Frame) (fails rest : List Byte) : State :=
  { sent i s (retryEvents s.cfg f 0 fails ++ [.frame s.cfg.addr f 0#8]) rest (fails.length * waitTicks s.cfg.retryDelayMs) with
    errcnt := satAdd32 s.errcnt fails.length }

/-- A request of one frame, sent by its first primitive, that passes its checks: the frame after its retries, then the others,
whose inputs are there. -/
theorem exec_retried {i : Instr} {s : State} {f : Frame} {fails rest : List Byte} {p : Prim} {ps : List Prim}
    (h : ServedAfter s fails rest ((waitsOf s.par i).map waitTicks).sum) (hwf : i.wellFormed = true)
    (hrange : PassesRange i s.cfg) (hsends : wouldSendFrame i = true) (hinit : isInit i = false)
    (hframes : frameCount s.cfg i = 1) (hpayload : payloadLen (encode i) = 0) (hbody : bodyOf i s = p :: ps)
    (hp : sendsFrame p = true) (hf : runPrim p (sent i s [] s.statuses 0) = sendFrame f (sent i s [] s.statuses 0)) :
    exec i s = .next (complete (ps.foldl served (sentAfter i s f fails rest))) := by
  obtain ⟨hidle, hopen, hstatuses, hfailed, hlimit, hticks⟩ := h
  have hi : i ≠ .openBus := by rintro rfl; cases hsends
  have hsent := (sendFrameRetriesThenSucceedsOrDrops f (sent i s [] s.statuses 0) fails rest hfailed
    (by simp only [sent]; omega)).1 hstatuses hlimit
  have hfirst : runPrim p (started i s) = .done (sentAfter i s f fails rest) := by
    rw [started_eq_sent hsends hinit, hf, hsent]
    simp [sentAfter, sent]
  have hcount := bodyOf_frames hrange
  have htakes := bodyOf_payload i s
  have hwaits := bodyOf_waits i s
  have hclaim := claimBus_notMem_bodyOf hi s
  rw [hbody] at hcount htakes hwaits hclaim
  rw [hframes, List.countP_cons_of_pos hp, Nat.add_eq_right] at hcount
  have hsupplied : Supplied ps rest (sentAfter i s f fails rest) :=
    { noClaim := fun hc => hclaim (List.mem_cons_of_mem _ hc)
      statuses := by rw [hcount]; rfl
      payload := by
        rw [hpayload] at htakes
        exact ((List.sublist_cons_self p ps).countP_le.trans htakes.le).trans (Nat.zero_le _)
      ticks := by
        rw [List.filterMap_cons_none (waitOf?_of_sends hp)] at hwaits
        rw [ticksOf, hwaits]
        simp only [sentAfter, sent]
        omega }
  rw [exec_passes hidle (passes_of_open hopen hi hwf hrange), hbody, run_cons_done hfirst, hsupplied.runsTo.run]

/-- A request of one command frame, its primitives written out. -/
theorem exec_command {i : Instr} {s : State} {b : Byte} {fails rest : List Byte} {ps : List Prim}
    (h : ServedAfter s fails rest ((waitsOf s.par i).map waitTicks).sum) (hwf : i.wellFormed = true)
    (hrange : PassesRange i s.cfg) (hsends : wouldSendFrame i = true) (hinit : isInit i = false)
    (hframes : frameCount s.cfg i = 1) (hpayload : payloadLen (encode i) = 0) (hbody : bodyOf i s = .sendCmd b :: ps) :
    exec i s = .next (complete (ps.foldl served (sentAfter i s (encodeByte b false s.blMask) fails rest))) :=
  exec_retried h hwf hrange hsends hinit hframes hpayload hbody rfl rfl

/-- What completes a request after its frame, in the terms of `afterRetries`. -/
theorem complete_sentAfter {s : State} (hidle : s.busy = false) (i : Instr) (f : Frame) (fails rest : List Byte) :
    complete (sentAfter i s f fails rest) = afterRetries s f fails rest [] 0 := by
  simp [complete, sentAfter, sent, afterRetries, afterOk, emit, respCode, Seq.idle, respOk, hidle]

theorem complete_wait_sentAfter {s : State} (hidle : s.busy = false) (i : Instr) (f : Frame) (fails rest : List Byte) (d : Half) :
    complete ([.wait d].foldl served (sentAfter i s f fails rest)) =
      afterRetries s f fails rest (waitEvents d) (waitTicks d) := by
  simp [served, complete, sentAfter, sent, afterRetries, afterOk, emit, respCode, Seq.idle, respOk, hidle, Nat.sub_sub]

theorem sum_waitTicks_one (d : Half) : (([d] : List Half).map waitTicks).sum = waitTicks d := by simp

/-! ## Requests of one frame -/

/-- Settles O26. -/
theorem sendCmdSendsOneCommandFrame : Obligations.SendCmdSendsOneCommandFrame := by
  intro c s fails rest h
  rw [exec_command (i := .sendCmd c) h rfl trivial rfl rfl rfl (by simp [payloadLen, encode]) rfl, List.foldl_nil,
    complete_sentAfter h.idle]

/-- Settles O27. -/
theorem sendCharSendsOneDataFrame : Obligations.SendCharSendsOneDataFrame := by
  intro ch s fails rest h
  rw [exec_retried (i := .sendChar ch) (f := encodeByte ch true s.blMask) h rfl trivial rfl rfl rfl (by simp [payloadLen, encode])
    rfl rfl rfl, List.foldl_nil, complete_sentAfter h.idle]

/-- Settles O40. -/
theorem printCustomCharSendsTheSlot : Obligations.PrintCustomCharSendsTheSlot := by
  intro slot s fails rest hslot h
  rw [exec_retried (i := .printCustomChar slot) (f := encodeByte slot true s.blMask) h rfl hslot rfl rfl rfl
    (by simp [payloadLen, encode]) rfl rfl rfl, List.foldl_nil, complete_sentAfter h.idle]

/-- Settles O36. -/
theorem gotoSendsTheRowAddress : Obligations.GotoSendsTheRowAddress := by
  intro row col s fails rest h
  have hgoto (b : Byte) (hrow : RowReachable s.cfg.cols row) (haddr : rowAddr? s.cfg.cols row col = some b) :
      exec (.goto row col) s = .next (afterRetries s (encodeByte b false s.blMask) fails rest [] 0) := by
    have hbody : bodyOf (.goto row col) s = [.sendCmd b] := by simp [bodyOf, haddr]
    rw [exec_command (i := .goto row col) h rfl hrow rfl rfl rfl (by simp [payloadLen, encode]) hbody, List.foldl_nil,
      complete_sentAfter h.idle]
  obtain ⟨h1, h2, h3wide, h3, h4wide, h4, -⟩ := rowAddressOfEveryRowAndWidth s.cfg.cols row col
  exact ⟨fun hr => hgoto _ (.inl hr) (h1 hr), fun hr => hgoto _ (.inr (.inl hr)) (h2 hr),
    fun hr hc => hgoto _ (.inr (.inr ⟨.inl hr, .inr hc⟩)) (h3wide hr hc),
    fun hr hc => hgoto _ (.inr (.inr ⟨.inl hr, .inl hc⟩)) (h3 hr hc),
    fun hr hc => hgoto _ (.inr (.inr ⟨.inr hr, .inr hc⟩)) (h4wide hr hc),
    fun hr hc => hgoto _ (.inr (.inr ⟨.inr hr, .inl hc⟩)) (h4 hr hc)⟩

/-- Settles O35. -/
theorem clearScreenCmdAndHomeSendAndSettle : Obligations.ClearScreenCmdAndHomeSendAndSettle := by
  intro s fails rest
  refine ⟨fun h => ?clear, fun h => ?home⟩
  case clear =>
    rw [← sum_waitTicks_one] at h
    rw [exec_command (i := .clearScreenCmd) h rfl trivial rfl rfl rfl (by simp [payloadLen, encode]) rfl,
      complete_wait_sentAfter h.idle]
  case home =>
    rw [← sum_waitTicks_one] at h
    rw [exec_command (i := .home) h rfl trivial rfl rfl rfl (by simp [payloadLen, encode]) rfl, complete_wait_sentAfter h.idle]

theorem displayCmd_enum1 {on : Byte} (h : on.toNat < 2) (c : CmdTable) :
    displayCmd c (enum1 on) = if on = 1#8 then c.displayOn else c.displayOff := by
  obtain ⟨n, hn, rfl⟩ := exists_ofNat_of_lt h
  interval_cases n <;> rfl

/-- Settles O42. -/
theorem displayOnSendsAndWaits : Obligations.DisplayOnSendsAndWaits := by
  intro on s fails rest hon h
  have hwf : (Instr.displayOn on).wellFormed = true := by simpa [Instr.wellFormed] using hon
  rw [← sum_waitTicks_one] at h
  rw [exec_command (i := .displayOn on) h hwf trivial rfl rfl rfl (by simp [payloadLen, encode]) rfl,
    complete_wait_sentAfter h.idle, displayCmd_enum1 hon]

/-- Settles O38. -/
theorem changeEntryModeSendsAndRecordsTheMode : Obligations.ChangeEntryModeSendsAndRecordsTheMode := by
  intro mode s fails rest hmode h
  have hwf : (Instr.changeEntryMode mode).wellFormed = true := by simpa [Instr.wellFormed] using hmode
  rw [exec_command (i := .changeEntryMode mode) h hwf trivial rfl rfl rfl (by simp [payloadLen, encode]) rfl]
  simp only [enum2_eq, entryCmd_enum2 hmode, ← complete_sentAfter h.idle (.changeEntryMode mode)]
  simp [served, complete, emit]

/-- Settles O32. -/
theorem shutdownTurnsOffAndReleases : Obligations.ShutdownTurnsOffAndReleases := by
  intro s fails rest h
  rw [← sum_waitTicks_one] at h
  rw [exec_command (i := .shutdown) h rfl trivial rfl rfl rfl (by simp [payloadLen, encode]) rfl]
  simp [served, complete, sentAfter, sent, afterRetries, afterOk, emit, releaseBus, respCode, Seq.idle, respOk, h.idle, Nat.sub_sub]

/-! ## Requests that send no frame -/

/-- A request that passes its checks and would send no frame. -/
theorem exec_frameless {i : Instr} {s : State} (hidle : s.busy = false) (hi : i ≠ .openBus) (hwf : i.wellFormed = true)
    (hrange : PassesRange i s.cfg) (hsends : wouldSendFrame i = false) :
    exec i s = .next (run (bodyOf i s) (accept (encode i) s)) := by
  rw [exec_passes hidle ⟨hwf, fun h => absurd h hi, hrange, by simp [hsends]⟩]
  simp [started, hsends]

/-- Settles O29. -/
theorem emptyLoopsSendNothingAndAreOk : Obligations.EmptyLoopsSendNothingAndAreOk := by
  intro i s hidle hi
  have hnone (hne : i ≠ .openBus) (hwf : i.wellFormed = true) (hrange : PassesRange i s.cfg) (hsends : wouldSendFrame i = false)
      (hbody : bodyOf i s = []) :
      exec i s = .next { s with lastResp := 0#3, seq := Seq.idle, trace := s.trace ++ [.resp 0#3] } := by
    rw [exec_frameless hidle hne hwf hrange hsends, hbody]
    simp [accept, complete, emit, respCode, Seq.idle, respOk, hidle]
  rcases hi with rfl | ⟨dir, hdir, rfl | rfl⟩
  · exact hnone (by simp) rfl trivial rfl rfl
  · exact hnone (by simp) (by simpa [Instr.wellFormed] using hdir) trivial rfl rfl
  · exact hnone (by simp) (by simpa [Instr.wellFormed] using hdir) trivial rfl rfl

/-- The low half of a word is its A and OPC fields (60_exceptions.md R214). -/
theorem wordInfo_reqWord (b a opc : Byte) : (reqWord b a opc).extractLsb' 0 16 = a ++ opc := by
  apply BitVec.eq_of_getLsbD_eq
  intro i hi
  rw [BitVec.getLsbD_extractLsb', reqWord, getLsbD_fields, BitVec.getLsbD_append, Nat.zero_add]
  by_cases h : i < 8 <;> simp [h, hi]

/-- Settles O41. -/
theorem backlightSetStoresTheMask : Obligations.BacklightSetStoresTheMask := by
  refine ⟨rfl, rfl, fun s hidle => ⟨?on, ?off, fun on hon => ?illegal⟩⟩
  case on =>
    rw [exec_frameless (i := .backlightSet 1#8) hidle (by simp) rfl trivial rfl]
    simp [bodyOf, run, runPrim, accept, complete, emit, respCode, Seq.idle, respOk, hidle, enum1, blMaskOf, blOnMask]
  case off =>
    rw [exec_frameless (i := .backlightSet 0#8) hidle (by simp) rfl trivial rfl]
    simp [bodyOf, run, runPrim, accept, complete, emit, respCode, Seq.idle, respOk, hidle, enum1, blMaskOf, blOffMask]
  case illegal =>
    have hwf : (Instr.backlightSet on).wellFormed = false := by simp [Instr.wellFormed]; omega
    rw [outOfRangeOperandIsIllegal _ s hidle hwf, encode, wordInfo_reqWord]

end Sys2Proof.Machine
end

section
/-! PROOFS. INIT (42_init.md R140 to R142): its seven steps, and where it waits in them. -/

namespace Sys2Proof.Machine

/-! ## Requests that a check ends, and primitives that wait -/

/-- A request that does not pass its checks discards its payload and answers the error of one of them. -/
theorem exec_refused {i : Instr} {s : State} (hidle : s.busy = false) (h : ¬ Passes i s) :
    ∃ e info, exec i s = .next (endWith e info (encode i) (accept (encode i) s)) := by
  rw [exec_eq_request, request_idle hidle, checked]
  split
  · exact ⟨_, _, rfl⟩
  split
  · exact ⟨_, _, rfl⟩
  split
  · exact ⟨_, _, rfl⟩
  · next hlegal _ hrange hbus =>
    obtain ⟨hwf, hclosed⟩ := (illegalOf_eq_false_iff i s).mp (Bool.eq_false_iff.mpr hlegal)
    have hpasses := (rangeOf_eq_none_iff i s).mp hrange
    rw [wouldSend_planFor hpasses] at hbus
    exact absurd ⟨hwf, hclosed, hpasses, fun hw => by simpa [hw, accept] using hbus⟩ h

/-- A primitive that waits, OPEN's claim aside, has written no register. -/
theorem runPrim_blocked {p : Prim} {s t : State} (hp : p ≠ .claimBus) (h : runPrim p s = .blocked t) :
    BlockedPhase p t.seq.phase ∧ regs t = regs s := by
  obtain ⟨hup, hstop⟩ := runPrim_spec (F := fun _ => True) (P := (· = p)) p rfl s fun _ _ _ => trivial
  obtain ⟨hphase, -⟩ := hstop t h
  rw [h] at hup
  exact ⟨hphase, Updates.regs_eq (P := (· = p)) (Ne.symm hp) (fun q hq r => hq ▸ hphase.writes r) hup⟩

theorem foldl_served_busy (ps : List Prim) (s : State) : (ps.foldl served s).busy = s.busy := by
  induction ps generalizing s with
  | nil => rfl
  | cons p ps ih =>
    rw [List.foldl_cons, ih]
    cases p <;> rfl

theorem foldl_served_ticks (ps : List Prim) (s : State) : (ps.foldl served s).ticks = s.ticks - ticksOf ps := by
  induction ps generalizing s with
  | nil => rfl
  | cons p ps ih =>
    rw [List.foldl_cons, ih]
    cases p
    case wait d => exact Nat.sub_sub _ _ _
    all_goals rfl

/-! ## The primitives of INIT -/

theorem passes_init {ct : Byte} {s : State} (hopen : s.busOpen = true) (hct : ct.toNat < 4) : Passes (.init ct) s :=
  passes_of_open hopen (by simp) (by simpa [Instr.wellFormed] using hct) trivial

theorem exec_init {ct : Byte} {s : State} (hidle : s.busy = false) (hopen : s.busOpen = true) (hct : ct.toNat < 4) :
    exec (.init ct) s = .next (run (initBody s.par (enum2 ct)) (accept (encode (.init ct)) s)) := by
  rw [exec_passes hidle (passes_init hopen hct)]
  rfl

theorem ticksOf_initBody (p : Params) (ct : BitVec 2) :
    ticksOf (initBody p ct) = waitTicks p.powerOnMs + 3 * waitTicks p.initGapMs + waitTicks p.initClearMs := by
  simp [ticksOf, initBody, waitOf?, List.filterMap_cons]
  omega

/-- Where INIT waits, it waits at a primitive of its rule, and INIT_STATE is what those before it left. -/
theorem init_waits {ct : Byte} {s t : State} (hidle : s.busy = false) (h : exec (.init ct) s = .next t) (hbusy : t.busy = true) :
    t.initState = initStateAt (framesLeft t.seq) := by
  by_cases hpass : Passes (.init ct) s
  case neg =>
    obtain ⟨e, info, hexec⟩ := exec_refused hidle hpass
    have hlen : payloadLen (encode (.init ct)) = 0 := by simp [payloadLen, encode]
    rw [hexec, endWith, hlen] at h
    cases h
    cases hbusy
  case pos =>
    rw [exec_passes hidle hpass] at h
    cases h
    have hclaim := claimBus_notMem_bodyOf (i := .init ct) (by simp) s
    rcases run_cases (bodyOf (.init ct) s) (started (.init ct) s) with ⟨u, hu⟩ | ⟨before, p, after, u, t, hbody, hu, hp, hrun⟩
    · rw [hu.run] at hbusy
      cases hbusy
    · have hmem : p ∈ bodyOf (.init ct) s := by rw [hbody]; simp
      obtain ⟨hphase, hregs⟩ := runPrim_blocked (fun he => hclaim (he ▸ hmem)) hp
      obtain ⟨evs, d, hdone⟩ := hu.runDone fun hc => hclaim (by rw [hbody]; simp [hc])
      have hstate : t.initState = (before.foldl (fun r p => writes p r) (regs (started (.init ct) s))).initState :=
        congrArg Regs.initState (hregs.trans hdone.regs)
      rw [hrun]
      exact hstate.trans (initBody_initState _ hbody (hphase.waitsIn_init hmem))

/-- The first `k` of those elements of a list that `p` holds of, and the next one. -/
theorem exists_split_countP {α : Type} {p : α → Bool} {l : List α} {k : Nat} (h : k < l.countP p) :
    ∃ before x after, l = before ++ x :: after ∧ p x = true ∧ before.countP p = k := by
  induction l generalizing k with
  | nil => simp at h
  | cons y l ih =>
    by_cases hy : p y = true
    · cases k with
      | zero => exact ⟨[], y, l, rfl, hy, rfl⟩
      | succ k =>
        rw [List.countP_cons_of_pos hy] at h
        obtain ⟨before, x, after, rfl, hx, hcount⟩ := ih (Nat.lt_of_succ_lt_succ h)
        exact ⟨y :: before, x, after, rfl, hx, by rw [List.countP_cons_of_pos hy, hcount]⟩
    · rw [List.countP_cons_of_neg hy] at h
      obtain ⟨before, x, after, rfl, hx, hcount⟩ := ih h
      exact ⟨y :: before, x, after, rfl, hx, by rw [List.countP_cons_of_neg hy, hcount]⟩

/-- The inputs of the first primitives of INIT: the answers to their frames and the pulses of their Waits. -/
theorem supplied_init {par : Params} {ct : BitVec 2} {before after : List Prim} {rest : List Byte} {s : State}
    (hbody : initBody par ct = before ++ after) (hstatuses : s.statuses = List.replicate (before.countP sendsFrame) 0#8 ++ rest)
    (hticks : ticksOf before ≤ s.ticks) : Supplied before rest s where
  noClaim hc := by
    have : Prim.claimBus ∈ initBody par ct := by rw [hbody]; exact List.mem_append_left _ hc
    simp [initBody] at this
  statuses := hstatuses
  payload := by
    have : (initBody par ct).countP takesPayload = 0 := by simp [initBody, takesPayload]
    rw [hbody, List.countP_append] at this
    omega
  ticks := hticks

/-- INIT with `k` frames delivered and the next not answered. -/
theorem init_unanswered {ct : Byte} {s : State} {k : Nat} (hct : ct.toNat < 4) (hk : k < 8)
    (h : Served s k [] (waitTicks s.par.powerOnMs + 3 * waitTicks s.par.initGapMs + waitTicks s.par.initClearMs)) :
    ∃ t evs f n, exec (.init ct) s = .next t ∧ t.busy = true ∧ t.seq.phase = .attempt f n
      ∧ t.trace = s.trace ++ evs ∧ evs.countP isAttempt = k ∧ framesLeft t.seq = 8 - k := by
  have hframes : (initBody s.par (enum2 ct)).countP sendsFrame = 8 := rfl
  obtain ⟨before, p, after, hbody, hp, hcount⟩ := exists_split_countP (hframes ▸ hk)
  have hafter : after.countP sendsFrame = 7 - k := by
    rw [hbody, List.countP_append, List.countP_cons_of_pos hp] at hframes
    omega
  obtain ⟨b, rfl⟩ : ∃ b, p = .sendCmd b := by
    have hmem : p ∈ initBody s.par (enum2 ct) := by rw [hbody]; simp
    cases p
    case sendCmd b => exact ⟨b, rfl⟩
    case sendData | sendPayload => simp [initBody] at hmem
    all_goals cases hp
  have hticks : ticksOf before ≤ s.ticks := by
    have htotal := ticksOf_initBody s.par (enum2 ct)
    rw [hbody, ticksOf, List.filterMap_append, List.map_append, List.sum_append] at htotal
    have := h.ticks
    rw [ticksOf]
    omega
  have hsupplied : Supplied (before ++ []) [] (accept (encode (.init ct)) s) := by
    rw [List.append_nil]
    exact supplied_init hbody (by rw [hcount]; exact h.statuses) hticks
  obtain ⟨hruns, hnone⟩ := hsupplied.append
  obtain ⟨evs, htrace, hattempts, -⟩ := served_events (by simpa using hsupplied.noClaim) (accept (encode (.init ct)) s)
  have hstop (u : State) (hu : u.statuses = []) :
      runPrim (.sendCmd b) u = .blocked (setPhase (.attempt (encodeByte b false u.blMask) 0#16) u) := by
    rw [runPrim, sendCommand, sendFrame, hu, attempts]
  have hrun := hruns.run_append (.sendCmd b :: after)
  rw [run_cons_blocked (hstop _ hnone.statuses), ← hbody] at hrun
  have hexec := exec_init (ct := ct) h.idle h.busOpen hct
  rw [hrun] at hexec
  refine ⟨_, evs, _, 0#16, hexec, foldl_served_busy _ _, rfl, htrace, hattempts.trans hcount, ?_⟩
  simp only [framesLeft, setPhase_seq, inFlight, hafter, Option.isSome_some, if_true]
  omega

/-- INIT with its frames delivered and the pulses of its last Wait lacking. -/
theorem init_lastWait {ct : Byte} {s : State} {rest : List Byte} (hct : ct.toNat < 4)
    (h : Served s 8 rest (waitTicks s.par.powerOnMs + 3 * waitTicks s.par.initGapMs))
    (hlacks : s.ticks < waitTicks s.par.powerOnMs + 3 * waitTicks s.par.initGapMs + waitTicks s.par.initClearMs) :
    ∃ t left, exec (.init ct) s = .next t ∧ t.busy = true ∧ t.seq.phase = .waiting left ∧ framesLeft t.seq = 0 := by
  obtain ⟨before, hbefore⟩ : ∃ before, before = (initBody s.par (enum2 ct)).take 17 := ⟨_, rfl⟩
  have hbody : initBody s.par (enum2 ct) = before ++ [.wait s.par.initClearMs, .setInitState .ready] := by
    rw [hbefore]
    rfl
  have hticksOf : ticksOf before = waitTicks s.par.powerOnMs + 3 * waitTicks s.par.initGapMs := by
    rw [hbefore]
    simp [initBody, ticksOf, waitOf?, List.filterMap_cons]
    omega
  have hsupplied : Supplied before rest (accept (encode (.init ct)) s) :=
    supplied_init hbody (by rw [hbefore]; exact h.statuses) (hticksOf.trans_le h.ticks)
  have hleft := foldl_served_ticks before (accept (encode (.init ct)) s)
  obtain ⟨hne, hfew⟩ : s.par.initClearMs ≠ 0#16
      ∧ (before.foldl served (accept (encode (.init ct)) s)).ticks < s.par.initClearMs.toNat + 1 := by
    have hT := h.ticks
    have hsame : (accept (encode (.init ct)) s).ticks = s.ticks := rfl
    rw [hleft, hticksOf, hsame]
    have hlast : waitTicks s.par.initClearMs = if s.par.initClearMs = 0#16 then 0 else s.par.initClearMs.toNat + 1 := rfl
    split_ifs at hlast with hd
    · omega
    · exact ⟨hd, by omega⟩
  have hstop := (waitCountsOnePulseMoreThanItsMilliseconds _ _).2.2 hne hfew
  have hrun := hsupplied.runsTo.run_append [.wait s.par.initClearMs, .setInitState .ready]
  rw [run_cons_blocked hstop, ← hbody] at hrun
  have hexec := exec_init (ct := ct) h.idle h.busOpen hct
  rw [hrun] at hexec
  exact ⟨_, _, hexec, foldl_served_busy _ _, rfl, rfl⟩

theorem initStateAt_ne_ready (left : Nat) : initStateAt left ≠ .ready := by
  unfold initStateAt
  split_ifs <;> simp

/-- Settles O30. -/
theorem initRunsTheSevenSteps : Obligations.InitRunsTheSevenSteps := by
  refine ⟨fun ct s rest hct h => ?all, fun ct s t hidle h hbusy => ?waits, fun ct s k hct hk h => ?unanswered,
    fun ct s rest hct h hlacks => ?lastWait⟩
  case all =>
    have hsupplied : Supplied (initBody s.par (enum2 ct)) rest (accept (encode (.init ct)) s) :=
      supplied_init (after := []) (List.append_nil _).symm h.statuses ((ticksOf_initBody ..).trans_le h.ticks)
    rw [exec_init h.idle h.busOpen hct, hsupplied.runsTo.run]
    simp [initBody, served, accept, complete, emit, afterOk, h.statuses, h.idle, respCode, Seq.idle, respOk, cmdSent, enum2_eq,
      cursorCmd_enum2 hct, defaultEntry, entryCmd, Nat.sub_sub]
    omega
  case waits =>
    have hstate := init_waits hidle h hbusy
    exact ⟨hstate, hstate ▸ initStateAt_ne_ready _⟩
  case unanswered =>
    obtain ⟨t, evs, f, n, hexec, hbusy, hphase, htrace, hcount, hleft⟩ := init_unanswered hct hk h
    refine ⟨t, evs, f, n, hexec, hbusy, hphase, htrace, hcount, ?_⟩
    rw [init_waits h.idle hexec hbusy, hleft]
    interval_cases k <;> rfl
  case lastWait =>
    obtain ⟨t, left, hexec, hbusy, hphase, hleft⟩ := init_lastWait hct h hlacks
    exact ⟨t, left, hexec, hbusy, hphase, by rw [init_waits h.idle hexec hbusy, hleft]; rfl⟩

end Sys2Proof.Machine
end

section
/-! PROOFS. With a bounded retry limit every request completes (40_transport.md R105, R108, R109). -/

namespace Sys2Proof.Machine

/-- The primitives make no claim, and their inputs are there: for each frame the answers and the pulses that a bounded limit may
ask for, whatever the answers are. -/
structure Affords (ps : List Prim) (s : State) : Prop where
  noClaim : .claimBus ∉ ps
  bounded : s.cfg.retryLimit ≠ 0#16
  statuses : ps.countP sendsFrame * (1 + s.cfg.retryLimit.toNat) ≤ s.statuses.length
  payload : ps.countP takesPayload ≤ s.payload.length
  ticks : ps.countP sendsFrame * s.cfg.retryLimit.toNat * waitTicks s.cfg.retryDelayMs + ticksOf ps ≤ s.ticks

/-- SendFrame completes, and leaves what the limit did not ask for. -/
theorem sendFrame_completes (f : Frame) {s : State} (hbounded : s.cfg.retryLimit ≠ 0#16)
    (hstatuses : 1 + s.cfg.retryLimit.toNat ≤ s.statuses.length)
    (hticks : s.cfg.retryLimit.toNat * waitTicks s.cfg.retryDelayMs ≤ s.ticks) :
    ∃ t, sendFrame f s = .done t ∧ t.cfg = s.cfg ∧ t.payload = s.payload
      ∧ s.statuses.length ≤ t.statuses.length + (1 + s.cfg.retryLimit.toNat)
      ∧ s.ticks ≤ t.ticks + s.cfg.retryLimit.toNat * waitTicks s.cfg.retryDelayMs := by
  obtain ⟨t, ht, hst, htk⟩ := attempts_completes f s.statuses (n := 0#16) rfl hbounded (Nat.zero_le _) hstatuses hticks
  obtain ⟨evs, d, hsent⟩ := attempts_done f s.statuses ht
  exact ⟨t, ht, by rw [hsent.state], by rw [hsent.state], hst, htk⟩

/-- The first of the primitives completes, and leaves what the others may need. -/
theorem Affords.cons {p : Prim} {ps : List Prim} {s : State} (h : Affords (p :: ps) s) :
    ∃ t, runPrim p s = .done t ∧ Affords ps t := by
  obtain ⟨hclaim, hbounded, hstatuses, hpayload, hticks⟩ := h
  rw [List.mem_cons, not_or] at hclaim
  obtain ⟨hp, hclaim⟩ := hclaim
  have hframe (f : Frame) (s' : State) (hsends : sendsFrame p = true) (hcfg : s'.cfg = s.cfg) (hst : s'.statuses = s.statuses)
      (htk : s'.ticks = s.ticks) (hpl : ps.countP takesPayload ≤ s'.payload.length) :
      ∃ t, sendFrame f s' = .done t ∧ Affords ps t := by
    have hwait : ticksOf (p :: ps) = ticksOf ps := by
      rw [ticksOf, List.filterMap_cons_none (waitOf?_of_sends hsends), ticksOf]
    rw [List.countP_cons_of_pos hsends, Nat.succ_mul] at hstatuses
    rw [List.countP_cons_of_pos hsends, Nat.succ_mul, Nat.add_mul, hwait] at hticks
    obtain ⟨t, ht, htcfg, htpl, htst, httk⟩ := sendFrame_completes f (s := s') (by rwa [hcfg])
      (by rw [hcfg, hst]; omega) (by rw [hcfg, htk]; omega)
    rw [hcfg, hst] at htst
    rw [hcfg, htk] at httk
    rw [hcfg] at htcfg
    exact ⟨t, ht, hclaim, by rwa [htcfg], by rw [htcfg]; omega, by rwa [htpl], by rw [htcfg]; omega⟩
  cases p
  case claimBus => exact absurd rfl hp
  case sendCmd b | sendData b => exact hframe _ s rfl rfl rfl rfl (by simpa [takesPayload] using hpayload)
  case sendPayload =>
    obtain ⟨b, bs, hb, hlen⟩ := exists_payload_cons rfl hpayload
    rw [runPrim, sendNextPayload_cons hb]
    exact hframe _ { s with payload := bs } rfl rfl rfl rfl hlen
  case dropPayload =>
    obtain ⟨b, bs, hb, hlen⟩ := exists_payload_cons rfl hpayload
    exact ⟨_, dropNextPayload_cons hb, hclaim, hbounded, hstatuses, hlen, hticks⟩
  case wait d =>
    have hsum : ticksOf (.wait d :: ps) = waitTicks d + ticksOf ps := rfl
    have hsame : (Prim.wait d :: ps).countP sendsFrame = ps.countP sendsFrame := rfl
    rw [hsum, hsame] at hticks
    exact ⟨_, doWait_done _ (by omega), hclaim, hbounded, hstatuses, hpayload, by simp only; omega⟩
  all_goals exact ⟨_, rfl, hclaim, hbounded, hstatuses, hpayload, hticks⟩

theorem Affords.completes {ps : List Prim} {s : State} (h : Affords ps s) : ∃ u, RunsTo ps s u := by
  induction ps generalizing s with
  | nil => exact ⟨s, .nil s⟩
  | cons p ps ih =>
    obtain ⟨t, ht, hrest⟩ := h.cons
    obtain ⟨u, hu⟩ := ih hrest
    exact ⟨u, .cons ht hu⟩

/-- Settles O60: a request that a check ends discards its payload, OPEN has its claim answered, and the others afford their
primitives. -/
theorem boundedRetryRequestsComplete : Obligations.BoundedRetryRequestsComplete := by
  intro i s hidle hbounded hclaims hpayload hstatuses hticks
  by_cases hpass : Passes i s
  case neg =>
    obtain ⟨e, info, hexec⟩ := exec_refused hidle hpass
    rw [endWith, run_dropPayload _ _ (by simpa [accept] using hpayload)] at hexec
    exact ⟨_, hexec, rfl⟩
  by_cases hi : i = .openBus
  case pos =>
    subst hi
    obtain ⟨ok, rest, hc⟩ := List.exists_cons_of_ne_nil hclaims
    have hclaim : runPrim .claimBus (accept (encode .openBus) s) = .done _ := claimBus_cons hc
    exact ⟨_, exec_openBus_closed hidle (hpass.closed rfl), by rw [run_cons_done hclaim]; rfl⟩
  case neg =>
    have hframes := bodyOf_frames hpass.range
    have haffords : Affords (bodyOf i s) (started i s) :=
      { noClaim := claimBus_notMem_bodyOf hi s
        bounded := by rwa [started_cfg]
        statuses := by rwa [started_cfg, started_statuses, hframes]
        payload := by rwa [bodyOf_payload, started_payload]
        ticks := by rwa [started_cfg, started_ticks, hframes, ticksOf, bodyOf_waits] }
    obtain ⟨u, hu⟩ := haffords.completes
    exact ⟨_, exec_passes hidle hpass, by rw [hu.run]; rfl⟩

end Sys2Proof.Machine
end

section
/-! PROOFS. A request goes on after a dropped frame (40_transport.md R108; 60_exceptions.md R204). -/

namespace Sys2Proof.Machine

/-! ## Requests that complete -/

/-- A run that leaves BUSY = 0 has completed all its primitives. -/
theorem run_completed {ps : List Prim} {s : State} (hbusy : s.busy = true) (hdone : (run ps s).busy = false) :
    ∃ u, RunsTo ps s u ∧ run ps s = complete u := by
  induction ps generalizing s with
  | nil => exact ⟨s, .nil s, rfl⟩
  | cons p ps ih =>
    have hkeeps : (runPrim p s).state.busy = true := by
      rw [(runPrim_spec (F := fun _ => True) (P := fun _ => True) p trivial s fun _ _ _ => trivial).1.busy, hbusy]
    rw [run_cons] at hdone ⊢
    cases hp : runPrim p s with
    | blocked t =>
      rw [hp] at hdone hkeeps
      cases hkeeps.symm.trans hdone
    | done t =>
      rw [hp] at hdone hkeeps
      obtain ⟨u, hu, hrun⟩ := ih hkeeps hdone
      exact ⟨u, .cons hp hu, hrun⟩

theorem exec_completed {i : Instr} {s t : State} (hidle : s.busy = false) (hpass : Passes i s) (h : exec i s = .next t)
    (hdone : t.busy = false) : ∃ u, RunsTo (bodyOf i s) (started i s) u ∧ t = complete u := by
  rw [exec_passes hidle hpass] at h
  cases h
  exact run_completed (started_busy i s) hdone

/-- A request other than OPEN that passed its checks has completed from `s` in `t`, with the events `evs` before its RESP; `d`
says whether a frame was dropped. -/
structure Finished (i : Instr) (s t : State) (evs : List Event) (d : Bool) : Prop where
  trace : t.trace = s.trace ++ evs ++ [.resp t.lastResp]
  resp : t.lastResp = if d then 6#3 else 0#3
  dropped : t.fFrameDropped = (s.fFrameDropped || d)
  regs : regs t = (bodyOf i s).foldl (fun r p => writes p r) (regs s)
  attempted : frameCount s.cfg i ≤ evs.countP isAttempt
  ended : s.cfg.debug = true → evs.countP endsFrame = frameCount s.cfg i
  waited : ((waitsOf s.par i).filter fun d => d ≠ 0#16).Sublist (evs.filterMap delayOf?)

theorem exec_finished {i : Instr} {s t : State} (hidle : s.busy = false) (hpass : Passes i s) (hi : i ≠ .openBus)
    (h : exec i s = .next t) (hdone : t.busy = false) : ∃ evs d, Finished i s t evs d := by
  obtain ⟨u, hu, rfl⟩ := exec_completed hidle hpass h hdone
  obtain ⟨evs, d, htrace, -, hseq, hdropped, hregs, -, hattempted, hended, hwaited⟩ := hu.runDone (claimBus_notMem_bodyOf hi s)
  rw [bodyOf_frames hpass.range] at hattempted hended
  rw [bodyOf_waits] at hwaited
  rw [started_trace] at htrace
  rw [started_cfg] at hended
  rw [regs_started] at hregs
  rw [started_fFrameDropped] at hdropped
  refine ⟨evs, d, by rw [complete_trace, complete_lastResp, htrace], ?_, hdropped, hregs, hattempted, hended, hwaited⟩
  rw [complete_lastResp, hseq, started_seq]
  cases d <;> rfl

theorem Finished.resp_ok {i : Instr} {s t : State} {evs : List Event} {d : Bool} (h : Finished i s t evs d) :
    t.lastResp = 0#3 ∨ t.lastResp = 6#3 := by
  rw [h.resp]
  cases d
  · exact .inl rfl
  · exact .inr rfl

/-- No error is answered as a dropped frame is (60_exceptions.md R200). -/
theorem errorCode_ne_dropped (e : ErrorKind) : errorCode e ≠ 6#3 := by
  cases e <;> decide

/-- A request that a check ends drops no frame, and answers the error. -/
theorem refused_resp {i : Instr} {s t : State} (hidle : s.busy = false) (hpass : ¬ Passes i s) (h : exec i s = .next t)
    (hdone : t.busy = false) : t.lastResp ≠ 6#3 ∧ t.fFrameDropped = s.fFrameDropped := by
  obtain ⟨e, info, hexec⟩ := exec_refused hidle hpass
  rw [hexec, endWith] at h
  cases h
  obtain ⟨u, hu, hrun⟩ := run_completed (by simp [accept]) hdone
  obtain ⟨evs, d, hdone⟩ := hu.runDone (by simp [List.mem_replicate])
  have hd : d = false := by
    have := hdone.sent
    simpa [List.countP_replicate, sendsFrame] using this
  rw [hrun]
  constructor
  · rw [complete_lastResp, hdone.seq, raiseError_seq]
    exact errorCode_ne_dropped e
  · rw [complete_fFrameDropped, hdone.dropped, hd]
    simp [accept]

/-- OPEN sends no frame, and answers OK or BusUnavailable. -/
theorem openBus_resp {s t : State} (hidle : s.busy = false) (hclosed : s.busOpen = false) (h : exec .openBus s = .next t)
    (hdone : t.busy = false) : t.lastResp ≠ 6#3 ∧ t.fFrameDropped = s.fFrameDropped := by
  obtain ⟨-, hgranted, hrefused⟩ := openClaimsTheBus.2 s hidle
  rcases hc : s.claims with _ | ⟨ok, rest⟩
  · have hstop : runPrim .claimBus (accept (encode .openBus) s) = .blocked _ := claimBus_nil hc
    rw [exec_openBus_closed hidle hclosed, run_cons_blocked hstop] at h
    cases h
    cases hdone
  · cases ok
    · obtain ⟨q, hq⟩ := hrefused rest hclosed hc
      cases h.symm.trans hq
      exact ⟨by simp, rfl⟩
    · obtain ⟨q, hq⟩ := hgranted rest hclosed hc
      cases h.symm.trans hq
      exact ⟨by simp, rfl⟩

/-- A completed request answers FRAME_DROPPED exactly when it dropped a frame. -/
theorem resp_dropped_iff {i : Instr} {s t : State} (hidle : s.busy = false) (hclear : s.fFrameDropped = false)
    (h : exec i s = .next t) (hdone : t.busy = false) : t.lastResp = 6#3 ↔ t.fFrameDropped = true := by
  by_cases hpass : Passes i s
  case neg =>
    obtain ⟨hresp, hflag⟩ := refused_resp hidle hpass h hdone
    simp [hresp, hflag, hclear]
  by_cases hi : i = .openBus
  case pos =>
    subst hi
    obtain ⟨hresp, hflag⟩ := openBus_resp hidle (hpass.closed rfl) h hdone
    simp [hresp, hflag, hclear]
  case neg =>
    obtain ⟨evs, d, hfin⟩ := exec_finished hidle hpass hi h hdone
    rw [hfin.resp, hfin.dropped, hclear]
    cases d <;> simp

/-- A completed request that passed checks 1 and 2 on an open bus: its attempts, the frames it ended, and its Waits. -/
theorem frames_of_completed {i : Instr} {s t : State} (hidle : s.busy = false) (hopen : s.busOpen = true)
    (hwf : i.wellFormed = true) (hrange : PassesRange i s.cfg) (h : exec i s = .next t) (hdone : t.busy = false) :
    ∃ evs, t.trace = s.trace ++ evs ∧ frameCount s.cfg i ≤ evs.countP isAttempt
      ∧ (s.cfg.debug = true → evs.countP endsFrame = frameCount s.cfg i)
      ∧ ((waitsOf s.par i).filter fun d => d ≠ 0#16).Sublist (evs.filterMap delayOf?) := by
  by_cases hi : i = .openBus
  case pos =>
    subst hi
    obtain ⟨q, hq⟩ := (openClaimsTheBus.2 s hidle).1 hopen
    cases h.symm.trans hq
    refine ⟨_, List.append_assoc .., Nat.zero_le _, fun _ => ?_, List.nil_sublist _⟩
    cases s.cfg.debug <;> rfl
  case neg =>
    obtain ⟨evs, d, hfin⟩ := exec_finished hidle (passes_of_open hopen hi hwf hrange) hi h hdone
    refine ⟨evs ++ [.resp t.lastResp], by rw [hfin.trace, List.append_assoc], ?_, fun hd => ?_, ?_⟩
    · exact hfin.attempted.trans (List.sublist_append_left _ _).countP_le
    · rw [List.countP_append, hfin.ended hd]
      rfl
    · rw [List.filterMap_append]
      exact hfin.waited.trans (List.sublist_append_left _ _)

/-- SHUTDOWN releases the bus last. -/
theorem shutdown_trace {s t : State} (hidle : s.busy = false) (hopen : s.busOpen = true) (h : exec .shutdown s = .next t)
    (hdone : t.busy = false) : ∃ evs, t.trace = s.trace ++ evs ++ [.release, .resp t.lastResp] := by
  obtain ⟨u, hu, rfl⟩ := exec_completed hidle (passes_of_open (i := .shutdown) hopen (by simp) rfl trivial) h hdone
  obtain _ | ⟨hsend, _ | ⟨hwait, _ | ⟨hrelease, _ | ⟨hset, _ | _⟩⟩⟩⟩ := hu
  obtain ⟨evs, d, hfirst⟩ := ((RunsTo.cons hsend (.cons hwait (.nil _))).runDone (by simp))
  cases hrelease
  cases hset
  refine ⟨evs, ?_⟩
  rw [complete_trace, complete_lastResp]
  simp [hfirst.trace]

/-- SEND_STRING with its first frame dropped and the others delivered. -/
theorem sendString_dropped {n st b : Byte} {s : State} {text fails rest : List Byte} (hidle : s.busy = false)
    (hopen : s.busOpen = true) (hready : s.initState = .ready) (hn : n.toNat = 1 + text.length) (hpayload : s.payload = b :: text)
    (hbounded : s.cfg.retryLimit ≠ 0#16) (hlimit : fails.length = s.cfg.retryLimit.toNat) (hfails : ∀ x ∈ fails, x ≠ 0#8)
    (hst : st ≠ 0#8) (hstatuses : s.statuses = fails ++ st :: (List.replicate text.length 0#8 ++ rest))
    (hticks : fails.length * waitTicks s.cfg.retryDelayMs ≤ s.ticks) :
    exec (.sendString n) s = .next { s with
      trace := s.trace ++ retryEvents s.cfg (encodeByte b true s.blMask) 0 fails
        ++ [.frame s.cfg.addr (encodeByte b true s.blMask) st]
        ++ logEvents s.cfg.debug .frameDropped (st.setWidth 16) ++ text.map (dataSent s) ++ [.resp 6#3]
      payload := [], statuses := rest, ticks := s.ticks - fails.length * waitTicks s.cfg.retryDelayMs
      errcnt := satAdd32 s.errcnt (fails.length + 1), fFrameDropped := true, lastResp := 6#3, seq := Seq.idle } := by
  have hbody : bodyOf (.sendString n) s = .sendPayload :: List.replicate text.length .sendPayload := by
    rw [bodyOf, hn, Nat.add_comm, List.replicate_succ]
  have hsends : wouldSendFrame (.sendString n) = true := by simp [wouldSendFrame, hn]
  have hdrop := (sendFrameRetriesThenSucceedsOrDrops (encodeByte b true s.blMask)
    { sent (.sendString n) s [] s.statuses 0 with payload := text } fails (List.replicate text.length 0#8 ++ rest) hfails hticks).2
    st hstatuses hst hbounded hlimit
  have hfirst : runPrim .sendPayload (started (.sendString n) s) =
      sendFrame (encodeByte b true s.blMask) { sent (.sendString n) s [] s.statuses 0 with payload := text } := by
    rw [runPrim, sendNextPayload_cons ((started_payload _ s).trans hpayload), started_eq_sent hsends rfl]
    rfl
  rw [exec_passes hidle (passes_of_open (i := .sendString n) hopen (by simp) rfl trivial), hbody,
    run_cons_done (hfirst.trans hdrop)]
  have hsupplied (u : State) (hst : u.statuses = List.replicate text.length 0#8 ++ rest) (hpl : u.payload = text) :
      Supplied (List.replicate text.length .sendPayload) rest u :=
    ⟨by simp [List.mem_replicate], by simpa [List.countP_replicate, sendsFrame] using hst,
      by simp [List.countP_replicate, takesPayload, hpl], by simp [ticksOf, List.filterMap_replicate, waitOf?]⟩
  have hrun (u : State) (hst : u.statuses = List.replicate text.length 0#8 ++ rest) (hpl : u.payload = text) :
      run (List.replicate text.length .sendPayload) u =
        complete { u with trace := u.trace ++ text.map (dataSent u), statuses := rest, payload := [] } := by
    rw [(hsupplied u hst hpl).runsTo.run, served_sendPayload (more := []) (by rw [hpl, List.append_nil]), hst]
    simp
  rw [hrun _ rfl rfl]
  simp [sent, complete, emit, respCode, Seq.idle, respFrameDropped, hidle, hready, dataSent]

/-- Settles O22. -/
theorem droppedFrameLetsTheRequestGoOn : Obligations.DroppedFrameLetsTheRequestGoOn := by
  refine ⟨fun i s t hidle hclear h hdone => resp_dropped_iff hidle hclear h hdone,
    fun i s t hidle hopen hwf hrange h hdone => frames_of_completed hidle hopen hwf hrange h hdone,
    fun ct s t hidle hopen hct h hdone => ?init, fun ct s t hidle hopen hct h hdone => ?reset,
    fun mode s t hidle hopen hmode h hdone => ?mode, fun s t hidle hopen h hdone => ?shutdown,
    fun n st b s text fails rest hidle hopen hready hn hpayload hbounded hlimit hfails hst hstatuses hticks =>
      sendString_dropped hidle hopen hready hn hpayload hbounded hlimit hfails hst hstatuses hticks⟩
  case init =>
    obtain ⟨evs, d, hfin⟩ := exec_finished hidle (passes_init hopen hct) (by simp) h hdone
    have hregs := hfin.regs
    exact ⟨congrArg Regs.initState hregs, (congrArg Regs.cursorType hregs).trans (enum2_eq ct), congrArg Regs.ctValid hregs,
      congrArg Regs.entryMode hregs, congrArg Regs.emValid hregs, (congrArg Regs.busOpen hregs).trans hopen, hfin.resp_ok⟩
  case reset =>
    have hwf : (Instr.resetScreen ct).wellFormed = true := by simpa [Instr.wellFormed] using hct
    have hpass := passes_of_open (i := .resetScreen ct) hopen (by simp) hwf trivial
    obtain ⟨evs, d, hfin⟩ := exec_finished hidle hpass (by simp) h hdone
    have hregs := hfin.regs
    exact ⟨congrArg Regs.initState hregs, (congrArg Regs.cursorType hregs).trans (enum2_eq ct), congrArg Regs.ctValid hregs,
      congrArg Regs.entryMode hregs, congrArg Regs.emValid hregs, (congrArg Regs.busOpen hregs).trans hopen, hfin.resp_ok⟩
  case mode =>
    have hwf : (Instr.changeEntryMode mode).wellFormed = true := by simpa [Instr.wellFormed] using hmode
    have hpass := passes_of_open (i := .changeEntryMode mode) hopen (by simp) hwf trivial
    obtain ⟨evs, d, hfin⟩ := exec_finished hidle hpass (by simp) h hdone
    have hregs := hfin.regs
    exact ⟨(congrArg Regs.entryMode hregs).trans (enum2_eq mode), congrArg Regs.emValid hregs,
      (congrArg Regs.busOpen hregs).trans hopen, hfin.resp_ok⟩
  case shutdown =>
    obtain ⟨evs, d, hfin⟩ := exec_finished hidle (passes_of_open (i := .shutdown) hopen (by simp) rfl trivial) (by simp) h hdone
    obtain ⟨evs', htrace⟩ := shutdown_trace hidle hopen h hdone
    have hregs := hfin.regs
    exact ⟨congrArg Regs.busOpen hregs, congrArg Regs.initState hregs, hfin.resp_ok, evs', htrace⟩

end Sys2Proof.Machine
end
